-- ==== Sys2Proof/Word.lean ====
section
/-! DEFINITION. The words of the machine (spec 00_scope.md section 5.1): a byte is 8 bits, a word 16, an
address field `nnn` 12, and a register is named by one of 16 indices. All values are unsigned. -/

namespace Sys2Proof

/-- 8 bits: a V register, a byte of memory, a timer, an immediate `kk`. -/
abbrev Byte := BitVec 8

/-- 16 bits: an instruction word, pc, idx, a stack slot. -/
abbrev Word := BitVec 16

/-- 12 bits: the address field `nnn` of an instruction. -/
abbrev Addr := BitVec 12

/-- A register index, 0 to 15 (R10: every field value names a register). -/
abbrev RegIx := Fin 16

end Sys2Proof
end

