-- ==== Sys2Proof/Syntax.lean ====
section
/-! DEFINITION. The 35 instructions (R63), one constructor for each row of spec/opcode_table.json, in the
table's order, with the operands R62 gives its format. `Decoded` adds the sentinel of R64. -/

namespace Sys2Proof

/-- A decoded instruction ("Opcode variant", R62, R63). -/
inductive Instr where
  | clearScreen
  | ret
  | machineCall (nnn : Addr)
  | jump (nnn : Addr)
  | call (nnn : Addr)
  | skipIfEqVal (x : RegIx) (kk : Byte)
  | skipIfNotEqVal (x : RegIx) (kk : Byte)
  | skipIfMatchReg (x y : RegIx)
  | setRegister (x : RegIx) (kk : Byte)
  | add (x : RegIx) (kk : Byte)
  | assign (x y : RegIx)
  | or (x y : RegIx)
  | and (x y : RegIx)
  | xor (x y : RegIx)
  | addAssign (x y : RegIx)
  | subAssign (x y : RegIx)
  | shiftRight (x : RegIx)
  | flippedSubAssign (x y : RegIx)
  | shiftLeft (x : RegIx)
  | skipIfMismatchReg (x y : RegIx)
  | setIdx (nnn : Addr)
  | jumpTo (nnn : Addr)
  | rand (x : RegIx) (kk : Byte)
  | draw (x y : RegIx) (n : Fin 16)
  | skipIfPressed (x : RegIx)
  | skipIfNotPressed (x : RegIx)
  | storeDelay (x : RegIx)
  | waitKey (x : RegIx)
  | setDelay (x : RegIx)
  | setSound (x : RegIx)
  | incrementIdx (x : RegIx)
  | newSprite (x : RegIx)
  | bcd (x : RegIx)
  | dumpRegisters (x : RegIx)
  | fillRegisters (x : RegIx)
deriving DecidableEq, Repr

/-- What the decoder answers (R64): an instruction, or the sentinel that carries the raw word. -/
inductive Decoded where
  | instr (i : Instr)
  | unrecognized (w : Word)
deriving DecidableEq, Repr

end Sys2Proof
end

