-- ==== Sys2Proof/WellFormed.lean ====
section
/-! DEFINITION. Which instructions are representable (R67). The operand types already hold every range of
R69; what is left is that the two words 0x00E0 and 0x00EE are not MachineCall. -/

namespace Sys2Proof

/-- R67: "MachineCall(0x0E0) and MachineCall(0x0EE) are not representable (their words decode to ClearScreen
and Return)"; every other instruction is. -/
def Instr.wellFormed : Instr → Bool
  | .machineCall nnn => nnn != 0x0E0 && nnn != 0x0EE
  | .clearScreen | .ret | .jump _ | .call _ | .skipIfEqVal _ _ | .skipIfNotEqVal _ _
  | .skipIfMatchReg _ _ | .setRegister _ _ | .add _ _ | .assign _ _ | .or _ _ | .and _ _
  | .xor _ _ | .addAssign _ _ | .subAssign _ _ | .shiftRight _ | .flippedSubAssign _ _
  | .shiftLeft _ | .skipIfMismatchReg _ _ | .setIdx _ | .jumpTo _ | .rand _ _ | .draw _ _ _
  | .skipIfPressed _ | .skipIfNotPressed _ | .storeDelay _ | .waitKey _ | .setDelay _
  | .setSound _ | .incrementIdx _ | .newSprite _ | .bcd _ | .dumpRegisters _
  | .fillRegisters _ => true

end Sys2Proof
end

