-- ==== Sys2Proof/Decode.lean ====
section
/-! DEFINITION. The Opcode Codec (30_encoding.md): the fields of a word (R61), the decoder by leading nibble
and the same map as a table of rows (R63), the encoder (R67), and the host's `decodeTableWord`. -/

namespace Sys2Proof

/-! ## Fields (R61) -/

/-- `op = w[15:12]`. -/
def opOf (w : Word) : BitVec 4 := w.extractLsb' 12 4

/-- `x = w[11:8]`, a register index. -/
def xOf (w : Word) : RegIx := (w.extractLsb' 8 4).toFin

/-- `y = w[7:4]`, a register index. -/
def yOf (w : Word) : RegIx := (w.extractLsb' 4 4).toFin

/-- `n = w[3:0]`, a height or a selector. -/
def nOf (w : Word) : Fin 16 := (w.extractLsb' 0 4).toFin

/-- `kk = w[7:0]`. -/
def kkOf (w : Word) : Byte := w.extractLsb' 0 8

/-- `nnn = w[11:0]`. -/
def nnnOf (w : Word) : Addr := w.extractLsb' 0 12

/-! ## The decoder (R63, R64) -/

/-- Group 0x8, selected by the trailing nibble. -/
def decode8 (w : Word) : Decoded :=
  match (nOf w).val with
  | 0x0 => .instr (.assign (xOf w) (yOf w))
  | 0x1 => .instr (.or (xOf w) (yOf w))
  | 0x2 => .instr (.and (xOf w) (yOf w))
  | 0x3 => .instr (.xor (xOf w) (yOf w))
  | 0x4 => .instr (.addAssign (xOf w) (yOf w))
  | 0x5 => .instr (.subAssign (xOf w) (yOf w))
  | 0x6 => .instr (.shiftRight (xOf w))
  | 0x7 => .instr (.flippedSubAssign (xOf w) (yOf w))
  | 0xE => .instr (.shiftLeft (xOf w))
  | _ => .unrecognized w

/-- Group 0xE, selected by the trailing byte. -/
def decodeE (w : Word) : Decoded :=
  match (kkOf w).toNat with
  | 0x9E => .instr (.skipIfPressed (xOf w))
  | 0xA1 => .instr (.skipIfNotPressed (xOf w))
  | _ => .unrecognized w

/-- Group 0xF, selected by the trailing byte. -/
def decodeF (w : Word) : Decoded :=
  match (kkOf w).toNat with
  | 0x07 => .instr (.storeDelay (xOf w))
  | 0x0A => .instr (.waitKey (xOf w))
  | 0x15 => .instr (.setDelay (xOf w))
  | 0x18 => .instr (.setSound (xOf w))
  | 0x1E => .instr (.incrementIdx (xOf w))
  | 0x29 => .instr (.newSprite (xOf w))
  | 0x33 => .instr (.bcd (xOf w))
  | 0x55 => .instr (.dumpRegisters (xOf w))
  | 0x65 => .instr (.fillRegisters (xOf w))
  | _ => .unrecognized w

/-- `decode(w)`, the algorithm of R63: by leading nibble, then by the disambiguation of the row. Total, and
every word outside the 35 rows is rejected by name (R64, R65). -/
def decode (w : Word) : Decoded :=
  match (opOf w).toNat with
  | 0x0 =>
    if nnnOf w = 0x0E0 then .instr .clearScreen
    else if nnnOf w = 0x0EE then .instr .ret
    else .instr (.machineCall (nnnOf w))
  | 0x1 => .instr (.jump (nnnOf w))
  | 0x2 => .instr (.call (nnnOf w))
  | 0x3 => .instr (.skipIfEqVal (xOf w) (kkOf w))
  | 0x4 => .instr (.skipIfNotEqVal (xOf w) (kkOf w))
  | 0x5 => if (nOf w).val = 0 then .instr (.skipIfMatchReg (xOf w) (yOf w)) else .unrecognized w
  | 0x6 => .instr (.setRegister (xOf w) (kkOf w))
  | 0x7 => .instr (.add (xOf w) (kkOf w))
  | 0x8 => decode8 w
  | 0x9 => if (nOf w).val = 0 then .instr (.skipIfMismatchReg (xOf w) (yOf w)) else .unrecognized w
  | 0xA => .instr (.setIdx (nnnOf w))
  | 0xB => .instr (.jumpTo (nnnOf w))
  | 0xC => .instr (.rand (xOf w) (kkOf w))
  | 0xD => .instr (.draw (xOf w) (yOf w) (nOf w))
  | 0xE => decodeE w
  | 0xF => decodeF w
  | _ => .unrecognized w -- never reached: `op` has four bits

/-- The word two bytes make: the first byte is the high half (R42, R60). -/
def wordOfBytes (first second : Byte) : Word :=
  BitVec.ofNat 16 (first.toNat * 256 + second.toNat)

/-- `decode(first_byte, second_byte)` (R42). -/
def decodeBytes (first second : Byte) : Decoded := decode (wordOfBytes first second)

/-! ## The same map as a table (R63): "the row applies when `w & mask == match`", first row first. -/

/-- One row of the opcode table. -/
structure Row where
  pattern : Word
  mask : Word
  build : Word → Instr

/-- The rows of the leading nibbles 0x0 to 0x7. -/
def rows0to7 : List Row :=
  [ ⟨0x00E0, 0xFFFF, fun _ => .clearScreen⟩,
    ⟨0x00EE, 0xFFFF, fun _ => .ret⟩,
    ⟨0x0000, 0xF000, fun w => .machineCall (nnnOf w)⟩,
    ⟨0x1000, 0xF000, fun w => .jump (nnnOf w)⟩,
    ⟨0x2000, 0xF000, fun w => .call (nnnOf w)⟩,
    ⟨0x3000, 0xF000, fun w => .skipIfEqVal (xOf w) (kkOf w)⟩,
    ⟨0x4000, 0xF000, fun w => .skipIfNotEqVal (xOf w) (kkOf w)⟩,
    ⟨0x5000, 0xF00F, fun w => .skipIfMatchReg (xOf w) (yOf w)⟩,
    ⟨0x6000, 0xF000, fun w => .setRegister (xOf w) (kkOf w)⟩,
    ⟨0x7000, 0xF000, fun w => .add (xOf w) (kkOf w)⟩ ]

/-- The rows of the leading nibbles 0x8 to 0xD. -/
def rows8toD : List Row :=
  [ ⟨0x8000, 0xF00F, fun w => .assign (xOf w) (yOf w)⟩,
    ⟨0x8001, 0xF00F, fun w => .or (xOf w) (yOf w)⟩,
    ⟨0x8002, 0xF00F, fun w => .and (xOf w) (yOf w)⟩,
    ⟨0x8003, 0xF00F, fun w => .xor (xOf w) (yOf w)⟩,
    ⟨0x8004, 0xF00F, fun w => .addAssign (xOf w) (yOf w)⟩,
    ⟨0x8005, 0xF00F, fun w => .subAssign (xOf w) (yOf w)⟩,
    ⟨0x8006, 0xF00F, fun w => .shiftRight (xOf w)⟩,
    ⟨0x8007, 0xF00F, fun w => .flippedSubAssign (xOf w) (yOf w)⟩,
    ⟨0x800E, 0xF00F, fun w => .shiftLeft (xOf w)⟩,
    ⟨0x9000, 0xF00F, fun w => .skipIfMismatchReg (xOf w) (yOf w)⟩,
    ⟨0xA000, 0xF000, fun w => .setIdx (nnnOf w)⟩,
    ⟨0xB000, 0xF000, fun w => .jumpTo (nnnOf w)⟩,
    ⟨0xC000, 0xF000, fun w => .rand (xOf w) (kkOf w)⟩,
    ⟨0xD000, 0xF000, fun w => .draw (xOf w) (yOf w) (nOf w)⟩ ]

/-- The rows of the leading nibbles 0xE and 0xF. -/
def rowsEtoF : List Row :=
  [ ⟨0xE09E, 0xF0FF, fun w => .skipIfPressed (xOf w)⟩,
    ⟨0xE0A1, 0xF0FF, fun w => .skipIfNotPressed (xOf w)⟩,
    ⟨0xF007, 0xF0FF, fun w => .storeDelay (xOf w)⟩,
    ⟨0xF00A, 0xF0FF, fun w => .waitKey (xOf w)⟩,
    ⟨0xF015, 0xF0FF, fun w => .setDelay (xOf w)⟩,
    ⟨0xF018, 0xF0FF, fun w => .setSound (xOf w)⟩,
    ⟨0xF01E, 0xF0FF, fun w => .incrementIdx (xOf w)⟩,
    ⟨0xF029, 0xF0FF, fun w => .newSprite (xOf w)⟩,
    ⟨0xF033, 0xF0FF, fun w => .bcd (xOf w)⟩,
    ⟨0xF055, 0xF0FF, fun w => .dumpRegisters (xOf w)⟩,
    ⟨0xF065, 0xF0FF, fun w => .fillRegisters (xOf w)⟩ ]

/-- The 35 rows of R63, in its order. -/
def opcodeRows : List Row := rows0to7 ++ rows8toD ++ rowsEtoF

/-- First-match decoding from the table of R63. -/
def decodeByRows (w : Word) : Decoded :=
  match opcodeRows.find? (fun r => w &&& r.mask == r.pattern) with
  | some r => .instr (r.build w)
  | none => .unrecognized w

/-! ## The encoder (R67) -/

/-- Format A: `op n n n`. -/
def encA (op : Nat) (nnn : Addr) : Word := BitVec.ofNat 16 (op * 0x1000 + nnn.toNat)

/-- Formats I and X: `op x k k`, where `kk` is an immediate or the fixed selector byte. -/
def encI (op : Nat) (x : RegIx) (kk : Byte) : Word :=
  BitVec.ofNat 16 (op * 0x1000 + x.val * 0x100 + kk.toNat)

/-- Formats R, S and D: `op x y n`, where `n` is a selector or a height and an ignored `y` is 0. -/
def encR (op : Nat) (x y n : Fin 16) : Word :=
  BitVec.ofNat 16 (op * 0x1000 + x.val * 0x100 + y.val * 0x10 + n.val)

/-- `encode(i)`: "the pattern of rule R63 with the instruction's operands in their fields and every ignored
nibble 0" (R67). -/
def encode : Instr → Word
  | .clearScreen => 0x00E0
  | .ret => 0x00EE
  | .machineCall nnn => encA 0x0 nnn
  | .jump nnn => encA 0x1 nnn
  | .call nnn => encA 0x2 nnn
  | .skipIfEqVal x kk => encI 0x3 x kk
  | .skipIfNotEqVal x kk => encI 0x4 x kk
  | .skipIfMatchReg x y => encR 0x5 x y 0
  | .setRegister x kk => encI 0x6 x kk
  | .add x kk => encI 0x7 x kk
  | .assign x y => encR 0x8 x y 0x0
  | .or x y => encR 0x8 x y 0x1
  | .and x y => encR 0x8 x y 0x2
  | .xor x y => encR 0x8 x y 0x3
  | .addAssign x y => encR 0x8 x y 0x4
  | .subAssign x y => encR 0x8 x y 0x5
  | .shiftRight x => encR 0x8 x 0 0x6
  | .flippedSubAssign x y => encR 0x8 x y 0x7
  | .shiftLeft x => encR 0x8 x 0 0xE
  | .skipIfMismatchReg x y => encR 0x9 x y 0
  | .setIdx nnn => encA 0xA nnn
  | .jumpTo nnn => encA 0xB nnn
  | .rand x kk => encI 0xC x kk
  | .draw x y n => encR 0xD x y n
  | .skipIfPressed x => encI 0xE x 0x9E
  | .skipIfNotPressed x => encI 0xE x 0xA1
  | .storeDelay x => encI 0xF x 0x07
  | .waitKey x => encI 0xF x 0x0A
  | .setDelay x => encI 0xF x 0x15
  | .setSound x => encI 0xF x 0x18
  | .incrementIdx x => encI 0xF x 0x1E
  | .newSprite x => encI 0xF x 0x29
  | .bcd x => encI 0xF x 0x33
  | .dumpRegisters x => encI 0xF x 0x55
  | .fillRegisters x => encI 0xF x 0x65

/-- `encode` on what the decoder answers: `encode(Unrecognized(w)) = w` (R67). -/
def encodeDecoded : Decoded → Word
  | .instr i => encode i
  | .unrecognized w => w

/-- A shift word whose ignored nibble 2 is not zero (R66, R67: there are 480 of them). -/
def isLooseShift (w : Word) : Bool :=
  opOf w == 0x8 && ((nOf w).val == 0x6 || (nOf w).val == 0xE) && (yOf w).val != 0

/-- "the word with nibble 2 cleared" for those words, every other word as it is (R67). -/
def canonicalWord (w : Word) : Word := if isLooseShift w then w &&& 0xFF0F else w

/-! ## The host's question -/

/-- The instruction the decoder reads from an instruction whose bits are `w`, numbered as
spec/opcode_table.json numbers them: one 16-bit word, laid out first byte high (R42). Bits above `nbits` are 0;
an instruction longer than one word does not exist here (R60). -/
def decodeTableWord (nbits w : Nat) : Option Instr :=
  if nbits ≤ 16 then
    let bits := w % 2 ^ nbits
    match decodeBytes (BitVec.ofNat 8 (bits / 256)) (BitVec.ofNat 8 bits) with
    | .instr i => some i
    | .unrecognized _ => none
  else none

end Sys2Proof
end

