-- ==== Sys2Proof/Config.lean ====
section
/-! DEFINITION. What is fixed for one machine: the constants of R5, the three open parameters of R6, and the
free values the outside world puts on the input ports (log entries 2 and 5). -/

namespace Sys2Proof

/-- The 80 bytes of the font (R19); their values are the open parameter FONT. -/
abbrev Font := Vector Byte 80

/-- MACHINE_CALL_EFFECT (R6, R100): what MachineCall does. -/
inductive MachineCallEffect where
  | fault
  | nop
deriving DecidableEq, Repr

/-- IDX_ADD_MODULUS (R6, R141): 0x1000 (`carry12`, the default) or the literal 0xFFF of the source. -/
inductive IdxAddModulus where
  | carry12
  | literalFFF
deriving DecidableEq, Repr

/-- The open parameters of R6. A machine is built with one `Config` and nothing changes it afterwards. -/
structure Config where
  font : Font
  machineCallEffect : MachineCallEffect
  idxAddModulus : IdxAddModulus
deriving DecidableEq, Repr

namespace Config

/-! The fixed parameters, R5. -/

def memSize : Nat := 4096
def addrMax : Nat := 0xFFF
def programBase : Nat := 0x200
def maxRom : Nat := 3584
def fontBase : Nat := 0x000
def fontLen : Nat := 80
def glyphLen : Nat := 5
def nregs : Nat := 16
def regWidth : Nat := 8
def idxWidth : Nat := 16
def pcWidth : Nat := 16
def stackDepth : Nat := 16
def screenW : Nat := 64
def screenH : Nat := 32
def nkeys : Nat := 16
def timerWidth : Nat := 8
def instrBytes : Nat := 2

/-! Free values (DESIGN CHOICE, safe; log entry 2). R24: "The values on `quit_in`, `keys_in` and `rnd_in`
are unconstrained". What the ports show at a step for which State holds no value is one of these, applied to
State's counter `draws`; they have no body, so nothing can be proved of their values. -/

/-- `quit_in` at the n-th free sample. -/
opaque freeQuit : Nat → Bool

/-- `keys_in` at the n-th free sample. -/
opaque freeKeys : Nat → BitVec 16

/-- `rnd_in` at the n-th free sample. -/
opaque freeRnd : Nat → Byte

end Config

end Sys2Proof
end

