-- ==== Sys2Proof/Machine/Font.lean ====
section
/-! DEFINITION. The default values of the open parameters (R6): the glyph table of R19, and the configuration
State.reset is built with. PRESUMED bytes, DESIGN CHOICE of the defaults (log entry 5; unsafe for a claim about
glyphs). -/

namespace Sys2Proof

/-- The default FONT, R19's table, glyphs 0 to F, 5 bytes each (from general knowledge, not in the source). -/
def defaultFont : Font :=
  #v[0xF0, 0x90, 0x90, 0x90, 0xF0,  0x20, 0x60, 0x20, 0x20, 0x70,
     0xF0, 0x10, 0xF0, 0x80, 0xF0,  0xF0, 0x10, 0xF0, 0x10, 0xF0,
     0x90, 0x90, 0xF0, 0x10, 0x10,  0xF0, 0x80, 0xF0, 0x10, 0xF0,
     0xF0, 0x80, 0xF0, 0x90, 0xF0,  0xF0, 0x10, 0x20, 0x40, 0x40,
     0xF0, 0x90, 0xF0, 0x90, 0xF0,  0xF0, 0x90, 0xF0, 0x10, 0xF0,
     0xF0, 0x90, 0xF0, 0x90, 0x90,  0xE0, 0x90, 0xE0, 0x90, 0xE0,
     0xF0, 0x80, 0x80, 0x80, 0xF0,  0xE0, 0x90, 0x90, 0x90, 0xE0,
     0xF0, 0x80, 0xF0, 0x80, 0xF0,  0xF0, 0x80, 0xF0, 0x80, 0x80]

/-- R6's defaults: FONT the customary glyphs, MACHINE_CALL_EFFECT Fault, IDX_ADD_MODULUS 0x1000. -/
def defaultConfig : Config :=
  { font := defaultFont, machineCallEffect := .fault, idxAddModulus := .carry12 }

end Sys2Proof
end

