-- ==== Sys2Proof/Machine/State.lean ====
section
/-! DEFINITION. Everything the spec gives the machine (10_state.md), as plain data, and the machine after reset
(R28). The fields after `fault` are the core's output ports, its input ports and its open parameters. -/

namespace Sys2Proof.Machine

/-- The seven faults (R170) with their payloads. A fault is an error condition of the running program that
ends the run. Each is raised by a step, which answers a NEXT state whose latch `State.fault` holds it (R178, log
entry 1); no meaning and no step answers `Host.Outcome.fault`. Safe: nothing of the machine goes on after it. -/
inductive Fault where
  /-- InvalidOpcode(w), R171: raised by the decode phase of any step, for a word that is none of the 35. Safe. -/
  | invalidOpcode (w : Word)
  /-- StackOverflow, R172: raised by Call with sp = 16. Safe. -/
  | stackOverflow
  /-- StackUnderflow, R173: raised by Return with sp = 0. Safe. -/
  | stackUnderflow
  /-- PcOutOfRange(pc), R174: raised by the fetch phase of any step, when pc > 0xFFE. Safe. -/
  | pcOutOfRange (pc : Word)
  /-- MemOutOfRange(a), R175: raised by BCD, DumpRegisters, FillRegisters and Draw, when the range of bytes passes
  0xFFF; `a` is the lowest out-of-range address. Safe. -/
  | memOutOfRange (a : Nat)
  /-- KeyIndexOutOfRange(v), R176: raised by SkipIfPressed and SkipIfNotPressed, when V[x] > 15. Safe. -/
  | keyIndexOutOfRange (v : Byte)
  /-- MachineCallUnsupported(nnn), R177: raised by MachineCall, when MACHINE_CALL_EFFECT = Fault. Safe. -/
  | machineCallUnsupported (nnn : Addr)
deriving DecidableEq, Repr

/-- Why an instruction would have no meaning here. No instruction is refused: exec has a meaning in every arm. -/
inductive Refusal where
  /-- Raised by an arm of exec whose instruction has no meaning yet; there is none. Safe. -/
  | notModelled (mnemonic : String)
deriving DecidableEq, Repr

/-- `step_result` (R90): what a step returns. -/
inductive StepResult where
  | completed
  | quit
  | fault (f : Fault)
deriving DecidableEq, Repr

/-- The values on the three sampled input ports (R24) during one step. `keys` bit k: key k is down. -/
structure Inputs where
  quit : Bool
  keys : BitVec 16
  rnd : Byte
deriving DecidableEq, Repr

/-- Memory: (address, byte) pairs in one canonical form (`Memory.wf`); an address not listed reads as it does
after reset (`Memory.background`). -/
abbrev Memory := List Host.Cell

/-- R18: 64 by 32 pixels, held by rows: row py counted from the top, and in it bit px for the column counted from
the left. The flat index of R18 is `px + 64 * py` (`screenOut`). -/
abbrev Screen := Vector (BitVec 64) 32

/-- The state of the machine: the twelve items of R10 to R22, then ports and parameters. -/
structure State where
  /-- V0 to VF (R10); VF, index 15, is the flag (R11). -/
  v : Vector Byte 16
  /-- The index register (R12). -/
  idx : Word
  /-- The program counter (R13). -/
  pc : Word
  /-- The 16 slots of the call stack (R14). -/
  stack : Vector Word 16
  /-- The stack pointer, 0 to 16 (R14). -/
  sp : Fin 17
  /-- delay_timer (R15). -/
  dt : Byte
  /-- sound_timer (R16). -/
  st : Byte
  /-- The 4096 bytes of memory (R17). -/
  mem : Memory
  /-- The 2048 pixels (R18), row by row. -/
  screen : Screen
  /-- The key latch (R20): the snapshot taken at the end of the previous completed step. -/
  key : Vector Bool 16
  /-- draw_flag (R21), also an output port. -/
  drawFlag : Bool
  /-- The fault latch (R22), also an output port. -/
  fault : Option Fault
  /-- Output port `alert` (R25): did it pulse in the last step. -/
  alert : Bool
  /-- Output port `step_result` (R25, R90): what the last step returned; `none` before the first step. -/
  result : Option StepResult
  /-- The model's own (log entry 2): what the input ports show during the coming step. -/
  inputs : Inputs
  /-- The model's own (log entry 2): what they will show at the steps after it, oldest first; after the last
  entry they show free values. -/
  script : List Inputs
  /-- The model's own (log entry 2): how many free values have been drawn. -/
  draws : Nat
  /-- The open parameters of R6; nothing writes them. -/
  cfg : Config
deriving DecidableEq, Repr

/-- R28, R200, R201: the machine after a reset, for given open parameters. The model's own fields and the two
per-step outputs start idle (DESIGN CHOICE, log entries 3 and 4). -/
def State.resetOf (c : Config) : State :=
  { v := Vector.replicate 16 0
    idx := 0
    pc := 0x200
    stack := Vector.replicate 16 0
    sp := 0
    dt := 0
    st := 0
    mem := []
    screen := Vector.replicate 32 0
    key := Vector.replicate 16 false
    drawFlag := true
    fault := none
    alert := false
    result := none
    inputs := { quit := false, keys := 0, rnd := 0 }
    script := []
    draws := 0
    cfg := c }

/-- The machine right after reset, with R6's default parameters. -/
def State.reset : State := State.resetOf defaultConfig

end Sys2Proof.Machine
end

