-- ==== Sys2Proof/Machine/Memory.lean ====
section
/-! DEFINITION. The 4096 bytes of memory as a list in one canonical form (R17, R41, R47): reading and writing one
byte. Every byte is plain storage; no address has a side effect. -/

namespace Sys2Proof.Machine

/-- What an address that is not listed reads as: its byte after reset (R17, R28: FONT at 0x000 to 0x04F, 0
everywhere else). -/
def Memory.background (font : Font) (a : Nat) : Byte := (font[a]?).getD 0

/-- The canonical form: addresses strictly rising, all of them addresses of the memory, and no entry equal to
what an unlisted address reads as. -/
abbrev Memory.wf (font : Font) (m : Memory) : Prop :=
  m.Pairwise (fun c d => c.1 < d.1) ∧ ∀ c ∈ m, c.1 < 4096 ∧ c.2 ≠ Memory.background font c.1

/-- Read one byte. -/
def Memory.read (font : Font) : Memory → Nat → Byte
  | [], a => Memory.background font a
  | (k, b) :: m, a => if k = a then b else Memory.read font m a

/-- Put a cell in its place in the rising order. -/
def Memory.insert : Memory → Nat → Byte → Memory
  | [], a, b => [(a, b)]
  | c :: m, a, b => if a < c.1 then (a, b) :: c :: m else c :: Memory.insert m a b

/-- Write one byte: the old entry goes, and a new one comes unless the byte is what the address reads as
unlisted. -/
def Memory.write (font : Font) (m : Memory) (a : Nat) (b : Byte) : Memory :=
  let rest := m.filter (fun c => c.1 != a)
  if b = Memory.background font a then rest else Memory.insert rest a b

/-- `MemRead(a, 1)` of 00_scope.md section 5.3, for an address in range. -/
def State.memRead (s : State) (a : Nat) : Byte := Memory.read s.cfg.font s.mem a

/-- `MemWrite(a, 1, b)` of 00_scope.md section 5.3, for an address in range. -/
def State.memWrite (s : State) (a : Nat) (b : Byte) : State :=
  { s with mem := Memory.write s.cfg.font s.mem a b }

/-- Bytes stored at rising addresses from `a` on (R43, R46: one byte at a time, in that order). -/
def State.storeFrom (s : State) (a : Nat) : List Byte → State
  | [] => s
  | b :: bs => (s.memWrite a b).storeFrom (a + 1) bs

end Sys2Proof.Machine
end

