-- ==== Sys2Proof/Machine/Ops.lean ====
section
/-! DEFINITION. The shared operations on registers, pc and stack, and the raising of a fault. A fault is this
machine's only exception: it has no handler, no vector, no saved state and no return (R178, R179). -/

namespace Sys2Proof.Machine

/-- VF is register 15 (R11). -/
def vf : RegIx := 15

/-- `V[x]` (R10): an ordinary read; no register is hard-wired. -/
def State.reg (s : State) (x : RegIx) : Byte := s.v[x.val]

/-- `V[x] <- b` (R10). -/
def State.setReg (s : State) (x : RegIx) (b : Byte) : State := { s with v := s.v.set x.val b }

/-- Result first, flag last (R121): with x = 15 the flag is what VF holds. -/
def State.setRegFlag (s : State) (x : RegIx) (result flag : Byte) : State :=
  (s.setReg x result).setReg vf flag

/-- `pc <- pc + 2` (R13). -/
def State.advance (s : State) : State := { s with pc := s.pc + 2 }

/-- `pc <- pc + 4` if the predicate holds, else `pc <- pc + 2` (R110). -/
def State.skipIf (s : State) (p : Bool) : State := { s with pc := s.pc + (if p then 4 else 2) }

/-- `pc <- target` (R105: absolute, not validated). -/
def State.goto (s : State) (target : Word) : State := { s with pc := target }

/-- Taking a fault (R178): the latch holds it and no other state changes; pc still addresses the faulting
instruction. -/
def State.raise (s : State) (f : Fault) : State := { s with fault := some f }

/-- Push one slot (R101): `none` when all 16 are in use. -/
def State.push (s : State) (a : Word) : Option State :=
  if h : s.sp.val < 16 then
    some { s with stack := s.stack.set s.sp.val a, sp := ⟨s.sp.val + 1, by omega⟩ }
  else none

/-- Pop one slot (R103, R14: the slot is not cleared): `none` when no slot is in use. -/
def State.pop (s : State) : Option (Word × State) :=
  if h : 0 < s.sp.val then
    some (s.stack[s.sp.val - 1], { s with sp := ⟨s.sp.val - 1, by omega⟩ })
  else none

end Sys2Proof.Machine
end

