-- ==== Sys2Proof/Machine/Flags.lean ====
section
/-! DEFINITION. The arithmetic of R133 and every flag computation (R11, R120): exact on natural numbers, then
brought to 8 bits. A flag is the byte 0 or 1. -/

namespace Sys2Proof.Machine

/-- A flag's byte. -/
def flagByte (p : Bool) : Byte := if p then 1 else 0

/-- `(a + b) mod 256` (R123, R128). -/
def addBytes (a b : Byte) : Byte := BitVec.ofNat 8 (a.toNat + b.toNat)

/-- `(a + 256 - b) mod 256` (R129, R131). -/
def subBytes (a b : Byte) : Byte := BitVec.ofNat 8 (a.toNat + 256 - b.toNat)

/-- `a >> 1`, logical (R130). -/
def shrByte (a : Byte) : Byte := BitVec.ofNat 8 (a.toNat / 2)

/-- `(a * 2) mod 256` (R132). -/
def shlByte (a : Byte) : Byte := BitVec.ofNat 8 (a.toNat * 2)

/-- Carry out of bit 7 (R128): 1 if a + b > 255. -/
def carryFlag (a b : Byte) : Byte := flagByte (decide (a.toNat + b.toNat > 255))

/-- No borrow (R129, R131): 1 if a >= b. -/
def noBorrowFlag (a b : Byte) : Byte := flagByte (decide (a.toNat ≥ b.toNat))

/-- The bit a right shift drops (R130). -/
def lsbFlag (a : Byte) : Byte := flagByte (a.getLsbD 0)

/-- The bit a left shift drops (R132). -/
def msbFlag (a : Byte) : Byte := flagByte (a.getLsbD 7)

/-- "past 0xFFF" (R141): 1 if idx + a > 0xFFF, whatever IDX_ADD_MODULUS is. -/
def idxOverflowFlag (idx : Word) (a : Byte) : Byte := flagByte (decide (idx.toNat + a.toNat > 0xFFF))

end Sys2Proof.Machine
end

