-- ==== Sys2Proof/Machine/Operands.lean ====
section
/-! DEFINITION. The operand forms: a 12-bit address (R69), V0 as an offset (R104), a key number (R115), and
indexed memory `idx + i` with its range test before the first access (R45, R146). -/

namespace Sys2Proof.Machine

/-- `zext_16(nnn)` (R69). -/
def zext16 (nnn : Addr) : Word := nnn.setWidth 16

/-- `zext_16(nnn) + zext_16(V[0])` (R104), at most 0x10FE. -/
def jumpTarget (nnn : Addr) (v0 : Byte) : Word := BitVec.ofNat 16 (nnn.toNat + v0.toNat)

/-- IDX_ADD_MODULUS (R6). -/
def idxModulus : IdxAddModulus → Nat
  | .carry12 => 0x1000
  | .literalFFF => 0xFFF

/-- `(idx + V[x]) mod IDX_ADD_MODULUS` (R141). -/
def idxSum (m : IdxAddModulus) (idx : Word) (a : Byte) : Word :=
  BitVec.ofNat 16 ((idx.toNat + a.toNat) % idxModulus m)

/-- `5 * V[x]` (R142): FONT_BASE is 0 and a glyph is 5 bytes. -/
def glyphAddr (a : Byte) : Word := BitVec.ofNat 16 (5 * a.toNat)

/-- `Key[k]` for the key number in a byte; `none` above 15 (R115, R116). -/
def State.keyDown (s : State) (k : Byte) : Option Bool := s.key[k.toNat]?

/-- The first key down, the smallest number (R163). -/
def State.lowestKey (s : State) : Option (Fin 16) :=
  (List.finRange 16).find? (fun k => s.key[k.val])

/-- The effective address `idx + i`, formed without wrap (R146). -/
def State.dataAddr (s : State) (i : Nat) : Nat := s.idx.toNat + i

/-- The range test of R45 and R146 for an instruction that touches idx to idx + last: the fault with the lowest
address above 0xFFF (0x1000, since idx is at most 0xFFF), or `none`. -/
def State.rangeFault (s : State) (last : Nat) : Option Fault :=
  if s.dataAddr last > 0xFFF then some (.memOutOfRange (max s.idx.toNat 0x1000)) else none

/-- The bytes at idx, ..., idx + n - 1 (R151). -/
def State.bytesAtIdx (s : State) (n : Nat) : List Byte :=
  (List.range n).map (fun i => s.memRead (s.dataAddr i))

/-- V0 to Vx, in that order (R144). -/
def State.regsUpTo (s : State) (x : RegIx) : List Byte :=
  (List.range (x.val + 1)).map (fun i => (s.v[i]?).getD 0)

/-- Hundreds, tens and ones of a byte (R143). -/
def bcdDigits (a : Byte) : List Byte :=
  [BitVec.ofNat 8 (a.toNat / 100), BitVec.ofNat 8 (a.toNat / 10 % 10), BitVec.ofNat 8 (a.toNat % 10)]

end Sys2Proof.Machine
end

