-- ==== Sys2Proof/Machine/Cycle.lean ====
section
/-! DEFINITION. The phases of a step other than execute (40_cycle.md): the fetch, the timer tick with the alert,
the key refresh, and what each way of ending a step leaves on the ports. -/

namespace Sys2Proof.Machine

/-- Fetch (R42, R83): the word at pc, high byte first; `none` when pc > 0xFFE. No alignment test (R44). -/
def State.fetch (s : State) : Option Word :=
  if s.pc.toNat ≤ 0xFFE then
    some (wordOfBytes (s.memRead s.pc.toNat) (s.memRead (s.pc.toNat + 1)))
  else none

/-- One tick of a timer: down by 1, never below 0 (R15, R16, R87). -/
def tickByte (t : Byte) : Byte := BitVec.ofNat 8 (t.toNat - 1)

/-- The tick phase (R87, R88): both timers, and the alert pulses if the tick finds st = 1. -/
def State.tick (s : State) : State :=
  { s with dt := tickByte s.dt, st := tickByte s.st, alert := s.st == 1 }

/-- `keys_in`, 16 bits with bit k for key k (R24), as 16 latches. -/
def latchOf (keys : BitVec 16) : Vector Bool 16 := Vector.ofFn fun k => keys.getLsbD k.val

/-- The key refresh (R89): all sixteen latches from `keys_in`. -/
def State.refreshKeys (s : State) : State := { s with key := latchOf s.inputs.keys }

/-- What the input ports show at the next step: the next entry of the script, or free values (log entry 2). -/
def State.comingInputs (s : State) : Inputs :=
  match s.script with
  | i :: _ => i
  | [] =>
    { quit := Config.freeQuit s.draws
      keys := Config.freeKeys s.draws
      rnd := Config.freeRnd s.draws }

/-- How many free values have been drawn once the ports have moved on. -/
def State.drawsAfter (s : State) : Nat :=
  match s.script with
  | _ :: _ => s.draws
  | [] => s.draws + 1

/-- The input ports move on to what they show at the next step (log entry 2). -/
def State.nextInputs (s : State) : State :=
  { s with inputs := s.comingInputs, script := s.script.tail, draws := s.drawsAfter }

/-- A step that runs all its phases returns Completed (R90). -/
def State.completed (s : State) : State :=
  { s.tick.refreshKeys.nextInputs with result := some .completed }

/-- A step in which a fault was raised ends there: no tick, no refresh, no alert (R86, R178). -/
def State.faulted (s : State) (f : Fault) : State :=
  { s.nextInputs with alert := false, result := some (.fault f) }

/-- A step with `quit_in` set: nothing happens (R82). -/
def State.quitted (s : State) : State :=
  { s.nextInputs with alert := false, result := some .quit }

/-- A step of a faulted machine samples no input and changes nothing; it returns the latched fault (R81). -/
def State.stillFaulted (s : State) (f : Fault) : State :=
  { s with alert := false, result := some (.fault f) }

/-- The end of a step whose fetch, decode or execute phase left the state `s` (R86): with the latch set the step
is a faulting one, else it goes on with the tick and the refresh. -/
def State.endStep (s : State) : State :=
  match s.fault with
  | some f => s.faulted f
  | none => s.completed

end Sys2Proof.Machine
end

