-- ==== Sys2Proof/Machine/Alu.lean ====
section
/-! DEFINITION. Register loads and the ALU (43_alu.md). Operands are read first; the five flag-writing
instructions write the result and then VF (R121); the other six leave VF alone (R120). -/

namespace Sys2Proof.Machine

/-- SetRegister(x, kk), R122. -/
def execSetRegister (x : RegIx) (kk : Byte) (s : State) : Host.Outcome State Fault Refusal :=
  .next (s.setReg x kk).advance

/-- Add(x, kk), R123: no flag. -/
def execAdd (x : RegIx) (kk : Byte) (s : State) : Host.Outcome State Fault Refusal :=
  .next (s.setReg x (addBytes (s.reg x) kk)).advance

/-- Assign(x, y), R124. -/
def execAssign (x y : RegIx) (s : State) : Host.Outcome State Fault Refusal :=
  .next (s.setReg x (s.reg y)).advance

/-- Or(x, y), R125. -/
def execOr (x y : RegIx) (s : State) : Host.Outcome State Fault Refusal :=
  .next (s.setReg x (s.reg x ||| s.reg y)).advance

/-- And(x, y), R126. -/
def execAnd (x y : RegIx) (s : State) : Host.Outcome State Fault Refusal :=
  .next (s.setReg x (s.reg x &&& s.reg y)).advance

/-- Xor(x, y), R127. -/
def execXor (x y : RegIx) (s : State) : Host.Outcome State Fault Refusal :=
  .next (s.setReg x (s.reg x ^^^ s.reg y)).advance

/-- AddAssign(x, y), R128. -/
def execAddAssign (x y : RegIx) (s : State) : Host.Outcome State Fault Refusal :=
  .next (s.setRegFlag x (addBytes (s.reg x) (s.reg y)) (carryFlag (s.reg x) (s.reg y))).advance

/-- SubAssign(x, y), R129: V[x] - V[y]. -/
def execSubAssign (x y : RegIx) (s : State) : Host.Outcome State Fault Refusal :=
  .next (s.setRegFlag x (subBytes (s.reg x) (s.reg y)) (noBorrowFlag (s.reg x) (s.reg y))).advance

/-- ShiftRight(x), R130: V[x] in place; no other register is read. -/
def execShiftRight (x : RegIx) (s : State) : Host.Outcome State Fault Refusal :=
  .next (s.setRegFlag x (shrByte (s.reg x)) (lsbFlag (s.reg x))).advance

/-- FlippedSubAssign(x, y), R131: V[y] - V[x], into V[x]. -/
def execFlippedSubAssign (x y : RegIx) (s : State) : Host.Outcome State Fault Refusal :=
  .next (s.setRegFlag x (subBytes (s.reg y) (s.reg x)) (noBorrowFlag (s.reg y) (s.reg x))).advance

/-- ShiftLeft(x), R132. -/
def execShiftLeft (x : RegIx) (s : State) : Host.Outcome State Fault Refusal :=
  .next (s.setRegFlag x (shlByte (s.reg x)) (msbFlag (s.reg x))).advance

end Sys2Proof.Machine
end

