-- ==== Sys2Proof/Machine/ControlFlow.lean ====
section
/-! DEFINITION. Control transfer (41_control_flow.md): MachineCall, Call, Jump, Return, JumpTo. On entry `pc` is
the address of the instruction itself (R85). -/

namespace Sys2Proof.Machine

/-- MachineCall(nnn), R100: its effect is the open parameter MACHINE_CALL_EFFECT. -/
def execMachineCall (nnn : Addr) (s : State) : Host.Outcome State Fault Refusal :=
  match s.cfg.machineCallEffect with
  | .fault => .next (s.raise (.machineCallUnsupported nnn))
  | .nop => .next s.advance

/-- Jump(nnn), R102. -/
def execJump (nnn : Addr) (s : State) : Host.Outcome State Fault Refusal :=
  .next (s.goto (zext16 nnn))

/-- Call(nnn), R101: pushes its own address. -/
def execCall (nnn : Addr) (s : State) : Host.Outcome State Fault Refusal :=
  match s.push s.pc with
  | none => .next (s.raise .stackOverflow)
  | some t => .next (t.goto (zext16 nnn))

/-- Return, R103: resumes two bytes past the address it pops. -/
def execReturn (s : State) : Host.Outcome State Fault Refusal :=
  match s.pop with
  | none => .next (s.raise .stackUnderflow)
  | some (a, t) => .next (t.goto (a + 2))

/-- JumpTo(nnn), R104: the offset register is V0. -/
def execJumpTo (nnn : Addr) (s : State) : Host.Outcome State Fault Refusal :=
  .next (s.goto (jumpTarget nnn (s.reg 0)))

end Sys2Proof.Machine
end

