-- ==== Sys2Proof/Machine/Display.lean ====
section
/-! DEFINITION. The display instructions (45_display.md): ClearScreen and Draw, the only writers of the screen. -/

namespace Sys2Proof.Machine

/-- The pixel in column px and row py (R18). -/
def pixel (screen : Screen) (px : Fin 64) (py : Fin 32) : Bool := screen[py.val].getLsbD px.val

/-- The screen with one pixel inverted. -/
def invertPixel (screen : Screen) (px : Fin 64) (py : Fin 32) : Screen :=
  screen.set py.val (screen[py.val] ^^^ BitVec.twoPow 64 px.val)

/-- The screen while a sprite is drawn, and whether a pixel has collided so far. -/
structure Canvas where
  screen : Screen
  hit : Bool
deriving DecidableEq, Repr

/-- The screen column of a sprite's column offset: taken modulo 64, wraparound and not clipping (R151). -/
def columnAt (vx : Byte) (col : Nat) : Fin 64 := ⟨(vx.toNat + col) % 64, by omega⟩

/-- The screen row of a sprite's row offset, modulo 32 (R151). -/
def rowAt (vy : Byte) (row : Nat) : Fin 32 := ⟨(vy.toNat + row) % 32, by omega⟩

/-- One sprite bit (R151): a 1 bit inverts its pixel and collides if the pixel was 1; a 0 bit does nothing. -/
def plot (px : Fin 64) (py : Fin 32) (bit : Bool) (c : Canvas) : Canvas :=
  if bit then
    { screen := invertPixel c.screen px py, hit := c.hit || pixel c.screen px py }
  else c

/-- The columns `cols` of one sprite row, in order; bit 7 is column offset 0 (R151). -/
def drawCols (vx vy : Byte) (row : Nat) (b : Byte) : List Nat → Canvas → Canvas
  | [], c => c
  | col :: cols, c =>
    drawCols vx vy row b cols (plot (columnAt vx col) (rowAt vy row) (b.getLsbD (7 - col)) c)

/-- The sprite rows from row offset `row` on, top row first (R151). -/
def drawRows (vx vy : Byte) : Nat → List Byte → Canvas → Canvas
  | _, [], c => c
  | row, b :: bs, c => drawRows vx vy (row + 1) bs (drawCols vx vy row b [0, 1, 2, 3, 4, 5, 6, 7] c)

/-- What a finished drawing leaves: the screen, VF as the collision flag, draw_flag set (R151). -/
def State.showCanvas (s : State) (c : Canvas) : State :=
  { (s.setReg vf (flagByte c.hit)) with screen := c.screen, drawFlag := true }

/-- ClearScreen, R150: VF is not written. -/
def execClearScreen (s : State) : Host.Outcome State Fault Refusal :=
  .next { s.advance with screen := Vector.replicate 32 0, drawFlag := true }

/-- Draw(x, y, n), R151: range test first, then coordinates and sprite are read, then VF, screen and draw_flag
are written. With n = 0 nothing is read or drawn and no range is tested. -/
def execDraw (x y : RegIx) (n : Fin 16) (s : State) : Host.Outcome State Fault Refusal :=
  match (if n.val = 0 then none else s.rangeFault (n.val - 1)) with
  | some f => .next (s.raise f)
  | none =>
    .next (s.showCanvas
      (drawRows (s.reg x) (s.reg y) 0 (s.bytesAtIdx n.val) { screen := s.screen, hit := false })).advance

end Sys2Proof.Machine
end

