-- ==== Sys2Proof/Machine/IndexMemory.lean ====
section
/-! DEFINITION. The index register and the memory instructions (44_index_memory.md). A range that passes 0xFFF
faults before the first access, and idx is never modified by a load or a store (R146). -/

namespace Sys2Proof.Machine

/-- `idx <- a`. -/
def State.setIdx (s : State) (a : Word) : State := { s with idx := a }

/-- The register file after V[i] <- MemRead(idx + i, 1) for i in 0 .. x (R145); registers above x keep their
value. -/
def State.loadedRegs (s : State) (x : RegIx) : Vector Byte 16 :=
  Vector.ofFn fun i => if i ≤ x then s.memRead (s.dataAddr i.val) else s.reg i

/-- V0 to Vx from memory (R145). -/
def State.loadRegs (s : State) (x : RegIx) : State := { s with v := s.loadedRegs x }

/-- SetIdx(nnn), R140. -/
def execSetIdx (nnn : Addr) (s : State) : Host.Outcome State Fault Refusal :=
  .next (s.setIdx (zext16 nnn)).advance

/-- IncrementIdx(x), R141: the flag is written last. -/
def execIncrementIdx (x : RegIx) (s : State) : Host.Outcome State Fault Refusal :=
  .next ((s.setIdx (idxSum s.cfg.idxAddModulus s.idx (s.reg x))).setReg vf
    (idxOverflowFlag s.idx (s.reg x))).advance

/-- NewSprite(x), R142: the whole byte, not masked to a digit. -/
def execNewSprite (x : RegIx) (s : State) : Host.Outcome State Fault Refusal :=
  .next (s.setIdx (glyphAddr (s.reg x))).advance

/-- BCD(x), R143: hundreds at the lowest address. -/
def execBcd (x : RegIx) (s : State) : Host.Outcome State Fault Refusal :=
  match s.rangeFault 2 with
  | some f => .next (s.raise f)
  | none => .next (s.storeFrom (s.dataAddr 0) (bcdDigits (s.reg x))).advance

/-- DumpRegisters(x), R144: V[i] to idx + i, for i in 0 .. x. -/
def execDumpRegisters (x : RegIx) (s : State) : Host.Outcome State Fault Refusal :=
  match s.rangeFault x.val with
  | some f => .next (s.raise f)
  | none => .next (s.storeFrom (s.dataAddr 0) (s.regsUpTo x)).advance

/-- FillRegisters(x), R145. -/
def execFillRegisters (x : RegIx) (s : State) : Host.Outcome State Fault Refusal :=
  match s.rangeFault x.val with
  | some f => .next (s.raise f)
  | none => .next (s.loadRegs x).advance

end Sys2Proof.Machine
end

