-- ==== Sys2Proof/Machine/Skips.lean ====
section
/-! DEFINITION. The six conditional skips (42_skips.md). They write nothing but pc (R110). -/

namespace Sys2Proof.Machine

/-- SkipIfEqVal(x, kk), R111. -/
def execSkipIfEqVal (x : RegIx) (kk : Byte) (s : State) : Host.Outcome State Fault Refusal :=
  .next (s.skipIf (s.reg x == kk))

/-- SkipIfNotEqVal(x, kk), R112. -/
def execSkipIfNotEqVal (x : RegIx) (kk : Byte) (s : State) : Host.Outcome State Fault Refusal :=
  .next (s.skipIf (s.reg x != kk))

/-- SkipIfMatchReg(x, y), R113. -/
def execSkipIfMatchReg (x y : RegIx) (s : State) : Host.Outcome State Fault Refusal :=
  .next (s.skipIf (s.reg x == s.reg y))

/-- SkipIfMismatchReg(x, y), R114. -/
def execSkipIfMismatchReg (x y : RegIx) (s : State) : Host.Outcome State Fault Refusal :=
  .next (s.skipIf (s.reg x != s.reg y))

/-- SkipIfPressed(x), R115: the latch is read, not the port. -/
def execSkipIfPressed (x : RegIx) (s : State) : Host.Outcome State Fault Refusal :=
  match s.keyDown (s.reg x) with
  | none => .next (s.raise (.keyIndexOutOfRange (s.reg x)))
  | some down => .next (s.skipIf down)

/-- SkipIfNotPressed(x), R116. -/
def execSkipIfNotPressed (x : RegIx) (s : State) : Host.Outcome State Fault Refusal :=
  match s.keyDown (s.reg x) with
  | none => .next (s.raise (.keyIndexOutOfRange (s.reg x)))
  | some down => .next (s.skipIf (!down))

end Sys2Proof.Machine
end

