-- ==== Sys2Proof/Machine/TimersKeysRandom.lean ====
section
/-! DEFINITION. The timers, the key wait and the random byte (46_timers_keys_random.md). -/

namespace Sys2Proof.Machine

/-- StoreDelay(x), R160: dt before this step's tick. -/
def execStoreDelay (x : RegIx) (s : State) : Host.Outcome State Fault Refusal :=
  .next (s.setReg x s.dt).advance

/-- SetDelay(x), R161. -/
def execSetDelay (x : RegIx) (s : State) : Host.Outcome State Fault Refusal :=
  .next { s.advance with dt := s.reg x }

/-- SetSound(x), R162. -/
def execSetSound (x : RegIx) (s : State) : Host.Outcome State Fault Refusal :=
  .next { s.advance with st := s.reg x }

/-- WaitKey(x), R163: while no key is latched nothing is written and pc stays; with keys latched the smallest
number is stored. -/
def execWaitKey (x : RegIx) (s : State) : Host.Outcome State Fault Refusal :=
  match s.lowestKey with
  | none => .next s
  | some k => .next (s.setReg x (BitVec.ofNat 8 k.val)).advance

/-- Rand(x, kk), R164: one sample of rnd_in, masked. -/
def execRand (x : RegIx) (kk : Byte) (s : State) : Host.Outcome State Fault Refusal :=
  .next (s.setReg x (s.inputs.rnd &&& kk)).advance

end Sys2Proof.Machine
end

