-- ==== Sys2Proof/Machine/Dispatch.lean ====
section
/-! DEFINITION. The execute phase (R85): one arm for each of the 35 instructions. -/

namespace Sys2Proof.Machine

def exec (i : Instr) (s : State) : Host.Outcome State Fault Refusal :=
  match i with
  | .clearScreen => Sys2Proof.Machine.execClearScreen s
  | .ret => Sys2Proof.Machine.execReturn s
  | .machineCall nnn => Sys2Proof.Machine.execMachineCall nnn s
  | .jump nnn => Sys2Proof.Machine.execJump nnn s
  | .call nnn => Sys2Proof.Machine.execCall nnn s
  | .skipIfEqVal x kk => Sys2Proof.Machine.execSkipIfEqVal x kk s
  | .skipIfNotEqVal x kk => Sys2Proof.Machine.execSkipIfNotEqVal x kk s
  | .skipIfMatchReg x y => Sys2Proof.Machine.execSkipIfMatchReg x y s
  | .setRegister x kk => Sys2Proof.Machine.execSetRegister x kk s
  | .add x kk => Sys2Proof.Machine.execAdd x kk s
  | .assign x y => Sys2Proof.Machine.execAssign x y s
  | .or x y => Sys2Proof.Machine.execOr x y s
  | .and x y => Sys2Proof.Machine.execAnd x y s
  | .xor x y => Sys2Proof.Machine.execXor x y s
  | .addAssign x y => Sys2Proof.Machine.execAddAssign x y s
  | .subAssign x y => Sys2Proof.Machine.execSubAssign x y s
  | .shiftRight x => Sys2Proof.Machine.execShiftRight x s
  | .flippedSubAssign x y => Sys2Proof.Machine.execFlippedSubAssign x y s
  | .shiftLeft x => Sys2Proof.Machine.execShiftLeft x s
  | .skipIfMismatchReg x y => Sys2Proof.Machine.execSkipIfMismatchReg x y s
  | .setIdx nnn => Sys2Proof.Machine.execSetIdx nnn s
  | .jumpTo nnn => Sys2Proof.Machine.execJumpTo nnn s
  | .rand x kk => Sys2Proof.Machine.execRand x kk s
  | .draw x y n => Sys2Proof.Machine.execDraw x y n s
  | .skipIfPressed x => Sys2Proof.Machine.execSkipIfPressed x s
  | .skipIfNotPressed x => Sys2Proof.Machine.execSkipIfNotPressed x s
  | .storeDelay x => Sys2Proof.Machine.execStoreDelay x s
  | .waitKey x => Sys2Proof.Machine.execWaitKey x s
  | .setDelay x => Sys2Proof.Machine.execSetDelay x s
  | .setSound x => Sys2Proof.Machine.execSetSound x s
  | .incrementIdx x => Sys2Proof.Machine.execIncrementIdx x s
  | .newSprite x => Sys2Proof.Machine.execNewSprite x s
  | .bcd x => Sys2Proof.Machine.execBcd x s
  | .dumpRegisters x => Sys2Proof.Machine.execDumpRegisters x s
  | .fillRegisters x => Sys2Proof.Machine.execFillRegisters x s

end Sys2Proof.Machine
end

