-- ==== Sys2Proof/Machine/Step.lean ====
section
/-! DEFINITION. The step (40_cycle.md): latched fault, quit, fetch, decode, execute, tick, refresh, in this
order (R81 to R90); and the host's way of placing one instruction where the step fetches. -/

namespace Sys2Proof.Machine

/-- `step()` (R80 to R90). -/
def step (s : State) : Host.Outcome State Fault Refusal :=
  match s.fault with
  | some f => .next (s.stillFaulted f)
  | none =>
    if s.inputs.quit then .next s.quitted
    else
      match s.fetch with
      | none => .next (s.raise (.pcOutOfRange s.pc)).endStep
      | some w =>
        match decode w with
        | .unrecognized raw => .next (s.raise (.invalidOpcode raw)).endStep
        | .instr i =>
          match exec i s with
          | .next t => .next t.endStep
          | .fault f => .fault f
          | .refused r => .refused r

/-- `s` with the instruction word `w` (spec/opcode_table.json's numbering; bits above `nbits` are 0) stored where
the next step fetches, and with what keeps that step from fetching out of the way: a latched fault, the quit
port, a pc with no two bytes. It stands for the load event that brings a program (R202, log entry 6). -/
def State.withFetchWord (s : State) (nbits w : Nat) : State :=
  let bits := w % 2 ^ nbits
  let pc : Word := if s.pc.toNat ≤ 0xFFE then s.pc else 0x200
  ({ s with pc := pc, fault := none, inputs := { s.inputs with quit := false } }).storeFrom pc.toNat
    [BitVec.ofNat 8 (bits / 256), BitVec.ofNat 8 bits]

end Sys2Proof.Machine
end

