-- ==== Sys2Proof/Machine/Report.lean ====
section
/-! DEFINITION. Names and numbers for the reader: the fault numbers of R170, the assembly spelling of R70 and the
conventional mnemonics of R71. No step uses them. -/

namespace Sys2Proof.Machine

/-- The number of a fault (R170, first column). -/
def Fault.number : Fault → Nat
  | .invalidOpcode _ => 1
  | .stackOverflow => 2
  | .stackUnderflow => 3
  | .pcOutOfRange _ => 4
  | .memOutOfRange _ => 5
  | .keyIndexOutOfRange _ => 6
  | .machineCallUnsupported _ => 7

/-- R70, column 2 of R63: an instruction's name and its operands in order, as bare numbers. -/
def asmForm : Instr → String × List Nat
  | .clearScreen => ("ClearScreen", [])
  | .ret => ("Return", [])
  | .machineCall nnn => ("MachineCall", [nnn.toNat])
  | .jump nnn => ("Jump", [nnn.toNat])
  | .call nnn => ("Call", [nnn.toNat])
  | .skipIfEqVal x kk => ("SkipIfEqVal", [x.val, kk.toNat])
  | .skipIfNotEqVal x kk => ("SkipIfNotEqVal", [x.val, kk.toNat])
  | .skipIfMatchReg x y => ("SkipIfMatchReg", [x.val, y.val])
  | .setRegister x kk => ("SetRegister", [x.val, kk.toNat])
  | .add x kk => ("Add", [x.val, kk.toNat])
  | .assign x y => ("Assign", [x.val, y.val])
  | .or x y => ("Or", [x.val, y.val])
  | .and x y => ("And", [x.val, y.val])
  | .xor x y => ("Xor", [x.val, y.val])
  | .addAssign x y => ("AddAssign", [x.val, y.val])
  | .subAssign x y => ("SubAssign", [x.val, y.val])
  | .shiftRight x => ("ShiftRight", [x.val])
  | .flippedSubAssign x y => ("FlippedSubAssign", [x.val, y.val])
  | .shiftLeft x => ("ShiftLeft", [x.val])
  | .skipIfMismatchReg x y => ("SkipIfMismatchReg", [x.val, y.val])
  | .setIdx nnn => ("SetIdx", [nnn.toNat])
  | .jumpTo nnn => ("JumpTo", [nnn.toNat])
  | .rand x kk => ("Rand", [x.val, kk.toNat])
  | .draw x y n => ("Draw", [x.val, y.val, n.val])
  | .skipIfPressed x => ("SkipIfPressed", [x.val])
  | .skipIfNotPressed x => ("SkipIfNotPressed", [x.val])
  | .storeDelay x => ("StoreDelay", [x.val])
  | .waitKey x => ("WaitKey", [x.val])
  | .setDelay x => ("SetDelay", [x.val])
  | .setSound x => ("SetSound", [x.val])
  | .incrementIdx x => ("IncrementIdx", [x.val])
  | .newSprite x => ("NewSprite", [x.val])
  | .bcd x => ("BCD", [x.val])
  | .dumpRegisters x => ("DumpRegisters", [x.val])
  | .fillRegisters x => ("FillRegisters", [x.val])

/-- The operands with commas between them. -/
def operandList : List String → String
  | [] => ""
  | [a] => a
  | a :: rest => a ++ "," ++ operandList rest

/-- R70's spelling: the name, and the operands in parentheses if there are any. -/
def asmText (i : Instr) : String :=
  match asmForm i with
  | (name, []) => name
  | (name, ops) => name ++ "(" ++ operandList (ops.map toString) ++ ")"

/-- R71's conventional name, for information. -/
def conventionalName : Instr → String
  | .clearScreen => "CLS"
  | .ret => "RET"
  | .machineCall _ => "SYS nnn"
  | .jump _ => "JP nnn"
  | .call _ => "CALL nnn"
  | .skipIfEqVal _ _ => "SE Vx, kk"
  | .skipIfNotEqVal _ _ => "SNE Vx, kk"
  | .skipIfMatchReg _ _ => "SE Vx, Vy"
  | .setRegister _ _ => "LD Vx, kk"
  | .add _ _ => "ADD Vx, kk"
  | .assign _ _ => "LD Vx, Vy"
  | .or _ _ => "OR Vx, Vy"
  | .and _ _ => "AND Vx, Vy"
  | .xor _ _ => "XOR Vx, Vy"
  | .addAssign _ _ => "ADD Vx, Vy"
  | .subAssign _ _ => "SUB Vx, Vy"
  | .shiftRight _ => "SHR Vx"
  | .flippedSubAssign _ _ => "SUBN Vx, Vy"
  | .shiftLeft _ => "SHL Vx"
  | .skipIfMismatchReg _ _ => "SNE Vx, Vy"
  | .setIdx _ => "LD I, nnn"
  | .jumpTo _ => "JP V0, nnn"
  | .rand _ _ => "RND Vx, kk"
  | .draw _ _ _ => "DRW Vx, Vy, n"
  | .skipIfPressed _ => "SKP Vx"
  | .skipIfNotPressed _ => "SKNP Vx"
  | .storeDelay _ => "LD Vx, DT"
  | .waitKey _ => "LD Vx, K"
  | .setDelay _ => "LD DT, Vx"
  | .setSound _ => "LD ST, Vx"
  | .incrementIdx _ => "ADD I, Vx"
  | .newSprite _ => "LD F, Vx"
  | .bcd _ => "LD B, Vx"
  | .dumpRegisters _ => "LD [I], Vx"
  | .fillRegisters _ => "LD Vx, [I]"

end Sys2Proof.Machine
end

