-- ==== Sys2Proof/Machine/Events.lean ====
section
/-! DEFINITION. The three host events that act between steps (R7, R24): reset (R200), load (R202, R203) and
frame_ack (R91); the values the outside puts on the input ports; and the output ports (R25). -/

namespace Sys2Proof.Machine

/-- The reset event (R200): every piece of the machine's state as in R28, whatever it was before. It samples no
input and pulses no output; the parameters and what the outside shows on the input ports stay. -/
def State.resetEvent (s : State) : State :=
  { State.resetOf s.cfg with inputs := s.inputs, script := s.script, draws := s.draws }

/-- What a load event reports to the host (R202, R203). -/
inductive LoadReport where
  /-- The number of bytes copied. -/
  | loaded (count : Nat)
  /-- More than 3584 bytes: refused, the machine untouched; not one of the seven faults. -/
  | romTooLarge
deriving DecidableEq, Repr

/-- The load event (R202, R203): size test, reset, then the bytes from 0x200 on. -/
def State.load (s : State) (rom : List Byte) : State × LoadReport :=
  if rom.length > 3584 then (s, .romTooLarge)
  else (s.resetEvent.storeFrom 0x200 rom, .loaded rom.length)

/-- The frame_ack event (R91): its whole effect. -/
def State.frameAck (s : State) : State := { s with drawFlag := false }

/-- The outside sets what the input ports show: at the coming step, and at the steps after it (R24:
unconstrained). -/
def State.present (s : State) (now : Inputs) (later : List Inputs) : State :=
  { s with inputs := now, script := later }

/-- The three host events. -/
inductive HostEvent where
  | reset
  | load (rom : List Byte)
  | frameAck
deriving DecidableEq, Repr

/-- What a host event leaves. -/
def State.onEvent (s : State) : HostEvent → State
  | .reset => s.resetEvent
  | .load rom => (s.load rom).1
  | .frameAck => s.frameAck

/-- `Screen[px + 64 * py]` for the indices 0 to 2047 in order (R18, D17). -/
def screenPixels (screen : Screen) : List Bool :=
  (List.finRange 32).flatMap fun py => (List.finRange 64).map fun px => pixel screen px py

/-- The output ports (R25). -/
structure Outputs where
  screenOut : List Bool
  drawFlag : Bool
  alert : Bool
  stepResult : Option StepResult
  fault : Option Fault
deriving DecidableEq, Repr

/-- `screen_out` is "always equal to `Screen`"; the others as R25 drives them. -/
def State.outputs (s : State) : Outputs :=
  { screenOut := screenPixels s.screen, drawFlag := s.drawFlag, alert := s.alert, stepResult := s.result, fault := s.fault }

end Sys2Proof.Machine
end

