-- ==== Sys2Proof/Safety.lean ====
section
/-! DEFINITION. The terms the statements use: a running machine, the invariant of R27, the end
of a program by the convention of R207, and which instruction writes and raises what (R29, R170). -/

namespace Sys2Proof.Machine

/-- The coming step will fetch: no fault is latched and `quit_in` is clear. -/
abbrev State.running (s : State) : Prop := s.fault = none ∧ s.inputs.quit = false

/-- The invariant of R27. V, dt, st, the pixels and sp have it by their types. -/
structure State.Inv (s : State) : Prop where
  /-- The model's own clause (log entry 7, DEDUCED): memory is in its canonical form and holds addresses 0x000 to
  0xFFF only. -/
  mem : Memory.wf s.cfg.font s.mem
  /-- idx <= 0xFFF. -/
  idx : s.idx.toNat ≤ 0xFFF
  /-- pc <= 0x10FE. -/
  pc : s.pc.toNat ≤ 0x10FE
  /-- Every live stack slot is at most 0xFFE. -/
  stack : ∀ i (h : i < 16), i < s.sp.val → s.stack[i].toNat ≤ 0xFFE

/-- R207's convention: pc holds the address of an instruction `Jump(pc)` that is in memory there. -/
def State.finished (s : State) : Bool :=
  decide (s.pc.toNat ≤ 0xFFE) && (s.fetch == some (BitVec.ofNat 16 (0x1000 + s.pc.toNat)))

/-- "A model without the latch that simply re-runs the step would raise the same fault again" (R22): the latched
fault, if there is one, is what the step raises once the latch is cleared and `quit_in` is clear. -/
def State.latchRecurs (s : State) : Prop :=
  ∀ f, s.fault = some f →
    ∃ t, step { s with fault := none, inputs := { s.inputs with quit := false } } = .next t ∧ t.fault = some f

/-- Draw(x, y, n) puts a 1 bit on pixel (px, py) (R151): some row and column of the sprite at idx has a 1 bit
there, column offset 0 being bit 7, wrapped modulo 64 and 32. -/
def spriteCovers (s : State) (x y : RegIx) (n : Nat) (px : Fin 64) (py : Fin 32) : Prop :=
  ∃ row col, row < n ∧ col < 8 ∧
    ((s.reg x).toNat + col) % 64 = px.val ∧ ((s.reg y).toNat + row) % 32 = py.val ∧
    (s.memRead (s.dataAddr row)).getLsbD (7 - col) = true

/-! ## R29, column by column: which instruction writes which state. pc is left out, as in R29. -/

/-- The V registers an instruction may write, VF as a flag included (columns "V regs" and "VF as flag"). -/
def writesReg : Instr → RegIx → Bool
  | .setRegister x _, r | .add x _, r | .assign x _, r | .or x _, r | .and x _, r | .xor x _, r
  | .rand x _, r | .storeDelay x, r | .waitKey x, r => r == x
  | .addAssign x _, r | .subAssign x _, r | .flippedSubAssign x _, r | .shiftRight x, r
  | .shiftLeft x, r => r == x || r == vf
  | .draw _ _ _, r | .incrementIdx _, r => r == vf
  | .fillRegisters x, r => decide (r ≤ x)
  | .clearScreen, _ | .ret, _ | .machineCall _, _ | .jump _, _ | .call _, _ | .skipIfEqVal _ _, _
  | .skipIfNotEqVal _ _, _ | .skipIfMatchReg _ _, _ | .skipIfMismatchReg _ _, _ | .setIdx _, _
  | .jumpTo _, _ | .skipIfPressed _, _ | .skipIfNotPressed _, _ | .setDelay _, _ | .setSound _, _
  | .newSprite _, _ | .bcd _, _ | .dumpRegisters _, _ => false

/-- Column idx. -/
def writesIdx (i : Instr) : Bool := i matches .setIdx _ | .incrementIdx _ | .newSprite _

/-- Column memory: the number of bytes stored at idx, idx + 1, ... -/
def bytesStored : Instr → Nat
  | .bcd _ => 3
  | .dumpRegisters x => x.val + 1
  | _ => 0

/-- Column "stack, sp". -/
def writesStack (i : Instr) : Bool := i matches .call _ | .ret

/-- Column dt. -/
def writesDt (i : Instr) : Bool := i matches .setDelay _

/-- Column st. -/
def writesSt (i : Instr) : Bool := i matches .setSound _

/-- Columns Screen and draw_flag. -/
def writesScreen (i : Instr) : Bool := i matches .clearScreen | .draw _ _ _

/-- The fault an instruction raises in a state, if any (R170, column "when"; the one fault it can raise, R180). -/
def faultOf (i : Instr) (s : State) : Option Fault :=
  match i with
  | .call _ => if s.sp.val = 16 then some .stackOverflow else none
  | .ret => if s.sp.val = 0 then some .stackUnderflow else none
  | .bcd _ => if s.idx.toNat + 2 > 0xFFF then some (.memOutOfRange (max s.idx.toNat 0x1000)) else none
  | .dumpRegisters x | .fillRegisters x =>
    if s.idx.toNat + x.val > 0xFFF then some (.memOutOfRange (max s.idx.toNat 0x1000)) else none
  | .draw _ _ n =>
    if n.val ≥ 1 ∧ s.idx.toNat + n.val - 1 > 0xFFF then some (.memOutOfRange (max s.idx.toNat 0x1000)) else none
  | .skipIfPressed x | .skipIfNotPressed x =>
    if (s.reg x).toNat > 15 then some (.keyIndexOutOfRange (s.reg x)) else none
  | .machineCall nnn =>
    if s.cfg.machineCallEffect = .fault then some (.machineCallUnsupported nnn) else none
  | _ => none

end Sys2Proof.Machine
end

