-- ==== Sys2Proof/Certificates/Slice0/Obligations.lean ====
section
/-! DEFINITION. The statements for the provers. A statement that rests on one of the spec's own decisions (D<n> of
92_eei_decisions.md) or on a passage the spec marks as general knowledge or derived says so in its docstring; its
basis is `derived`. `t = { s with v := t.v, pc := t.pc }` says that nothing but v and pc differs: the frame. In states
that no run reaches, pc + 2 and pc + 4 wrap at 16 bits (log entry 10, DESIGN CHOICE). What a docstring calls general
knowledge is log entry 30, PRESUMED, and for the pixels (D17, D18) log entry 21, PRESUMED. -/

open Sys2Proof Sys2Proof.Machine

/-! ## The codec -/

/-- R67 (D34): `decode(encode(i)) = i` for every representable instruction, every operand at every value. -/
def Obligations.DecodeOfEncode : Prop :=
  ∀ i : Instr, i.wellFormed = true → decode (encode i) = .instr i

/-- R67 (D34): `encode(decode(w)) = w`, but for the shift words, where nibble 2 comes back cleared; and an instruction
that is not representable does not come back. The sentinel that carries its word is R64 (D3, log entry 29). -/
def Obligations.EncodeOfDecode : Prop :=
  (∀ w : Word, encodeDecoded (decode w) = canonicalWord w) ∧
  (∀ i : Instr, i.wellFormed = false → decode (encode i) ≠ .instr i)

/-- R63: the algorithm by leading nibble and the table of matches and masks, first row first, decode every word
alike; "The only overlap is in `op = 0`, where ClearScreen and Return are tested before MachineCall". -/
def Obligations.AlgorithmAgreesWithTable : Prop :=
  (∀ w : Word, decode w = decodeByRows w) ∧
  opcodeRows.Pairwise fun r r' =>
    ∀ w : Word, w &&& r.mask = r.pattern → w &&& r'.mask = r'.pattern → (opOf w).toNat = 0

/-- R65: the unrecognized words are exactly these five sets, and the sentinel carries the word itself. The counts of
R65 are not stated. That the sentinel carries the word is R64 (D3, log entry 29). -/
def Obligations.UnrecognizedWords : Prop :=
  ∀ w : Word,
    (decode w = .unrecognized w ↔
      ((opOf w).toNat = 5 ∧ (nOf w).val ≠ 0) ∨ ((opOf w).toNat = 9 ∧ (nOf w).val ≠ 0) ∨
      ((opOf w).toNat = 8 ∧ (nOf w).val ∈ [0x8, 0x9, 0xA, 0xB, 0xC, 0xD, 0xF]) ∨
      ((opOf w).toNat = 0xE ∧ (kkOf w).toNat ∉ [0x9E, 0xA1]) ∨
      ((opOf w).toNat = 0xF ∧
        (kkOf w).toNat ∉ [0x07, 0x0A, 0x15, 0x18, 0x1E, 0x29, 0x33, 0x55, 0x65])) ∧
    (∀ raw, decode w = .unrecognized raw → raw = w)

/-- R66: nibble 2 of the two shifts is ignored, and no other recognized instruction has an ignored bit. -/
def Obligations.OnlyShiftsIgnoreBits : Prop :=
  (∀ x y : RegIx, decode (encR 0x8 x y 0x6) = .instr (.shiftRight x) ∧
    decode (encR 0x8 x y 0xE) = .instr (.shiftLeft x)) ∧
  (∀ (w w' : Word) (i : Instr), decode w = .instr i → decode w' = .instr i → w ≠ w' →
    ∃ x, (i = .shiftRight x ∨ i = .shiftLeft x) ∧ w &&& 0xFF0F = w' &&& 0xFF0F)

/-- Words of 95_test_vectors.md section 2.1, bit by bit. -/
def Obligations.SampleWordsDecode : Prop :=
  decode 0b0000_0000_1110_0000 = .instr .clearScreen ∧
  decode 0b0000_0000_1110_0001 = .instr (.machineCall 0x0E1) ∧
  decode 0b1000_1011_1100_0100 = .instr (.addAssign 0xB 0xC) ∧
  decode 0b1000_1010_1011_0110 = .instr (.shiftRight 0xA) ∧
  decode 0b1101_0001_0010_0101 = .instr (.draw 1 2 5) ∧
  decode 0b1110_0011_1010_0001 = .instr (.skipIfNotPressed 3) ∧
  decode 0b1111_0010_0101_0101 = .instr (.dumpRegisters 2) ∧
  decode 0b0101_0001_0010_0001 = .unrecognized 0x5121

/-! ## The step -/

/-- R42: the byte at the lower address is the high half of the word. -/
def Obligations.FetchIsBigEndian : Prop :=
  (∀ s : State, s.pc.toNat ≤ 0xFFE →
    ∃ w : Word, s.fetch = some w ∧
      w.toNat = (s.memRead s.pc.toNat).toNat * 256 + (s.memRead (s.pc.toNat + 1)).toNat) ∧
  decodeBytes 0x8B 0xC4 = .instr (.addAssign 0xB 0xC)

/-- R85 to R90: a step that fetches the word of an instruction runs that instruction's effect on the state as it is
(pc still addresses the instruction); if the effect raises no fault the tick, the alert, the key refresh and the
result follow, else the step ends with the fault. The tick in every completed step is R87 (D26, log entry 26); the
fault's end without tick, alert or refresh is R86 (D4, log entry 11), a next state by the model's reading (log entry
1, DEDUCED). What the ports show next is the model's own (log entry 2, DESIGN CHOICE). -/
def Obligations.StepRunsDecodedInstruction : Prop :=
  ∀ (s t : State) (w : Word) (i : Instr),
    s.fault = none → s.inputs.quit = false → s.fetch = some w → decode w = .instr i → exec i s = .next t →
    (t.fault = none →
      step s = .next { t with
        dt := BitVec.ofNat 8 (t.dt.toNat - 1), st := BitVec.ofNat 8 (t.st.toNat - 1)
        alert := decide (t.st.toNat = 1), key := Vector.ofFn fun k => s.inputs.keys.getLsbD k.val
        result := some .completed
        inputs := s.comingInputs, script := s.script.tail, draws := s.drawsAfter }) ∧
    (∀ f, t.fault = some f →
      step s = .next { t with
        alert := false, result := some (.fault f)
        inputs := s.comingInputs, script := s.script.tail, draws := s.drawsAfter })

/-- R81, R179 (D4): however often a faulted machine is stepped, every step returns the latched fault and changes
nothing. That a faulted machine's step answers a next state is the model's reading (log entry 1, DEDUCED). -/
def Obligations.FaultedMachineStays : Prop :=
  ∀ (s : State) (f : Fault) (n : Nat), s.fault = some f →
    Sys2Proof.core.run (n + 1) s = .next { s with alert := false, result := some (.fault f) }

/-- R82 (D24): a step with `quit_in` set changes no state of the machine and returns Quit. -/
def Obligations.QuitStepDoesNothing : Prop :=
  ∀ s : State, s.fault = none → s.inputs.quit = true →
    ∃ t, step s = .next t ∧ t = { s with
      alert := false, result := some .quit
      inputs := t.inputs, script := t.script, draws := t.draws }

/-- R83, R174 (D5): with pc > 0xFFE the step raises PcOutOfRange(pc), and reads nothing. That the step changes
nothing else (no tick, no key refresh) is R86 and R178 (D4, log entry 11). -/
def Obligations.FetchBeyondMemoryFaults : Prop :=
  ∀ s : State, s.fault = none → s.inputs.quit = false → s.pc.toNat > 0xFFE →
    ∃ t, step s = .next t ∧ t = { s with
      fault := some (.pcOutOfRange s.pc), alert := false, result := some (.fault (.pcOutOfRange s.pc))
      inputs := t.inputs, script := t.script, draws := t.draws }

/-- R84: an unrecognized word raises InvalidOpcode with the word as payload; pc stays at its address. That the step
changes nothing else (timers, key latch and the rest) is R86 and R178 (D4, log entry 11). -/
def Obligations.UnrecognizedWordFaults : Prop :=
  ∀ (s : State) (w : Word), s.fault = none → s.inputs.quit = false → s.fetch = some w →
    decode w = .unrecognized w →
    ∃ t, step s = .next t ∧ t = { s with
      fault := some (.invalidOpcode w), alert := false, result := some (.fault (.invalidOpcode w))
      inputs := t.inputs, script := t.script, draws := t.draws }

/-- R86, R178 (D4): a step that raises a fault changes nothing but the latch and the outputs: no register, pc,
stack, timer, byte of memory, pixel, key or draw_flag. -/
def Obligations.FaultsArePrecise : Prop :=
  ∀ (s t : State) (f : Fault), s.fault = none → step s = .next t → t.fault = some f →
    t = { s with
      fault := some f, alert := false, result := some (.fault f)
      inputs := t.inputs, script := t.script, draws := t.draws }

/-- R170 (D5, D6, D10, D20): which instruction raises which fault and when (`faultOf` is the table; its payload for an
idx above 0xFFF, which no run reaches, is log entry 9, DESIGN CHOICE); all the others raise none. That a raised fault is
the whole effect is R178 (D4, log entry 11). -/
def Obligations.InstructionFaults : Prop :=
  ∀ (i : Instr) (s : State), s.fault = none →
    ∃ t, exec i s = .next t ∧ t.fault = faultOf i s ∧
      (∀ f, faultOf i s = some f → t = { s with fault := some f })

/-- R180 (D36): quit (R82, D24) before any fault, then PcOutOfRange with pc > 0xFFE (R83, R174: D5), then
InvalidOpcode (R84), then the instruction's own by `faultOf` (R170: D6, D10, D20; its payload for an idx above 0xFFF,
which no run reaches, is log entry 9, DESIGN CHOICE). -/
def Obligations.FaultPriority : Prop :=
  ∀ s : State, s.fault = none →
    ∃ t, step s = .next t ∧
      (s.inputs.quit = true → t.fault = none) ∧
      (s.inputs.quit = false → s.pc.toNat > 0xFFE → t.fault = some (.pcOutOfRange s.pc)) ∧
      (s.inputs.quit = false → ∀ w, s.fetch = some w →
        (decode w = .unrecognized w → t.fault = some (.invalidOpcode w)) ∧
        (∀ i, decode w = .instr i → t.fault = faultOf i s))

/-- R90, and R8 (D4, D24): `step_result` says which of the three results the step had. That a fault and a quit are
next states too, so that every step answers a next state, is the model's reading (log entry 1, DEDUCED); R8 lists next
state, fault and quit as three outcomes. -/
def Obligations.EveryStepReports : Prop :=
  ∀ s : State, ∃ t, step s = .next t ∧
    ((t.result = some .completed ∧ t.fault = none ∧ s.fault = none ∧ s.inputs.quit = false) ∨
     (t.result = some .quit ∧ t.fault = none ∧ s.fault = none ∧ s.inputs.quit = true) ∨
     (∃ f, t.result = some (.fault f) ∧ t.fault = some f ∧ (s.fault = none ∨ s.fault = some f)))

/-- The delay timer. R15: zero after reset; written by SetDelay and by the tick of every completed step (D26), which
takes 1 while it is above 0; read by StoreDelay; a step of any other instruction does the same whatever dt holds, so
nothing happens when it reaches 0. That SetDelay writes V[x] and StoreDelay puts dt in V[x] is general knowledge (R160,
R161; log entry 30, PRESUMED). That a faulting step does not tick is R86 (D4, log entry 11), a quitting one R82
(D24). -/
def Obligations.DelayTimer : Prop :=
  (∀ s : State, s.resetEvent.dt = 0) ∧
  (∀ s t : State, step s = .next t → t.result = some .completed →
    ∃ w i, s.fetch = some w ∧ decode w = .instr i ∧
      t.dt.toNat = (match i with | .setDelay x => (s.reg x).toNat | _ => s.dt.toNat) - 1) ∧
  (∀ s t : State, step s = .next t → t.result ≠ some .completed → t.dt = s.dt) ∧
  (∀ (x : RegIx) (s : State), ∃ t, exec (.storeDelay x) s = .next t ∧ t.reg x = s.dt) ∧
  (∀ (s t : State) (d : Byte), (∀ w x, s.fetch = some w → decode w ≠ .instr (.storeDelay x)) →
    step s = .next t → ∃ t', step { s with dt := d } = .next t' ∧ t' = { t with dt := t'.dt })

/-- The sound timer. R16: the tick rule of the delay timer (D26); written by SetSound and read by no instruction;
the alert pulses in the step whose tick finds it at 1, and in no other. That SetSound writes V[x] is general knowledge
(R162; log entry 30, PRESUMED). That a faulting step neither ticks nor alerts is R86 (D4, log entry 11), a quitting one
R82 (D24). -/
def Obligations.SoundTimer : Prop :=
  (∀ s : State, s.resetEvent.st = 0) ∧
  (∀ s t : State, step s = .next t → t.result = some .completed →
    ∃ w i before, s.fetch = some w ∧ decode w = .instr i ∧
      before = (match i with | .setSound x => (s.reg x).toNat | _ => s.st.toNat) ∧
      t.st.toNat = before - 1 ∧ (t.alert = true ↔ before = 1)) ∧
  (∀ s t : State, step s = .next t → t.result ≠ some .completed → t.st = s.st ∧ t.alert = false) ∧
  (∀ (s t : State) (d : Byte), step s = .next t →
    ∃ t', step { s with st := d } = .next t' ∧ t' = { t with st := t'.st, alert := t'.alert })

/-- R89: at the end of a completed step all sixteen latches take `keys_in`; any other step keeps them; and what
`keys_in` shows during a step changes nothing else of that step, so an instruction sees it one step later. -/
def Obligations.KeyRefresh : Prop :=
  ∀ s t : State, s.fault = none → step s = .next t →
    (t.result = some .completed → ∀ (k : Nat) (h : k < 16), t.key[k] = s.inputs.keys.getLsbD k) ∧
    (t.result ≠ some .completed → t.key = s.key) ∧
    (∀ keys : BitVec 16, ∃ t', step { s with inputs := { s.inputs with keys := keys } } = .next t' ∧
      t' = { t with key := t'.key })

/-- R21, R91 (D19, D25): frame_ack clears draw_flag and does nothing else; no instruction reads draw_flag, so a
step after frame_ack and a step without it differ in draw_flag at most. -/
def Obligations.DrawFlagIsOnlyAnOutput : Prop :=
  (∀ s : State, s.frameAck = { s with drawFlag := false }) ∧
  (∀ (s t : State) (b : Bool), step s = .next t →
    ∃ t', step { s with drawFlag := b } = .next t' ∧ t' = { t with drawFlag := t'.drawFlag } ∧
      (t'.drawFlag = b ∨ (t'.drawFlag = true ∧ t.drawFlag = true)))

/-- R14 (D29): the slots at and above sp hold stale values that nothing reads. -/
def Obligations.StaleSlotsUnread : Prop :=
  ∀ (i : Instr) (s t : State) (stack : Vector Word 16),
    (∀ j (h : j < 16), j < s.sp.val → stack[j] = s.stack[j]) → exec i s = .next t →
    ∃ t', exec i { s with stack := stack } = .next t' ∧ t' = { t with stack := t'.stack } ∧
      (∀ j (h : j < 16), j < t.sp.val → t'.stack[j] = t.stack[j])

/-- R29 (derived by the spec): the state each instruction leaves alone, column by column; in no column is more written
than the tables of Safety.lean say. Every instruction answers a next state, one that faults too (log entry 1,
DEDUCED). The fields of the last clause other than the key latch are the model's own (log entries 2, 4 and 5). The
rows that do not list VF rest on D13 (R120), the faults without effect on D4 (R178) and D6 (R146). -/
def Obligations.WhatEachInstructionWrites : Prop :=
  ∀ (i : Instr) (s : State), ∃ t, exec i s = .next t ∧
    (∀ r, writesReg i r = false → t.reg r = s.reg r) ∧
    (writesIdx i = false → t.idx = s.idx) ∧
    (∀ a, (a < s.dataAddr 0 ∨ s.dataAddr 0 + bytesStored i ≤ a) → t.memRead a = s.memRead a) ∧
    (bytesStored i = 0 → t.mem = s.mem) ∧
    (writesStack i = false → t.stack = s.stack ∧ t.sp = s.sp) ∧
    (writesDt i = false → t.dt = s.dt) ∧ (writesSt i = false → t.st = s.st) ∧
    (writesScreen i = false → t.screen = s.screen ∧ t.drawFlag = s.drawFlag) ∧
    (t.key = s.key ∧ t.cfg = s.cfg ∧ t.alert = s.alert ∧ t.result = s.result ∧
      t.inputs = s.inputs ∧ t.script = s.script ∧ t.draws = s.draws)

/-! ## Invariants -/

/-- R27, R28: the bounds on idx, pc and the live stack slots hold after reset, whatever the open parameters; the
reset values of idx and sp are D15 (log entry 20). That memory is in canonical form is the model's own (log entry 7,
DEDUCED) and in neither rule. -/
def Obligations.InvAtReset : Prop :=
  State.reset.Inv ∧ ∀ c : Config, (State.resetOf c).Inv

/-- R27 (derived by the spec): every step keeps idx <= 0xFFF, pc <= 0x10FE and live stack slots <= 0xFFE. The clause
on canonical memory inside 0x000 to 0xFFF is the model's own (log entry 7, DEDUCED). The bounds rest on D5, D9 and D11
(pc, stack slots) and on D14 and D23 (idx), a faulting step on D4. -/
def Obligations.StepKeepsInv : Prop :=
  ∀ s t : State, s.Inv → step s = .next t → t.Inv

/-- R27 (derived by the spec): so does every host event. The clause on canonical memory is the model's own (log entry
7, DEDUCED); that a refused load leaves the machine untouched is R203 (D27, log entry 27). The reset values of idx and
sp are D15 (log entry 20), the frame_ack event D25 (log entry 22). -/
def Obligations.HostEventsKeepInv : Prop :=
  ∀ (s : State) (e : HostEvent), s.Inv → (s.onEvent e).Inv

/-- R22 (derived by the spec, D4): "a model without the latch that simply re-runs the step would raise the same fault
again": true after reset, and kept by every step and every host event. That a reset and a load clear the latch is D15
(log entry 20), that a refused load changes nothing D27 (log entry 27), the frame_ack event D25 (log entry 22). -/
def Obligations.LatchedFaultWouldRecur : Prop :=
  State.reset.latchRecurs ∧
  (∀ s t : State, s.latchRecurs → step s = .next t → t.latchRecurs) ∧
  (∀ (s : State) (e : HostEvent), s.latchRecurs → (s.onEvent e).latchRecurs)

/-- The model's own (log entry 7, DEDUCED), no rule of the spec: the canonical form makes equal memories equal data.
From the spec it takes the 4096 bytes of memory (R40) and, for what an unlisted address reads as, the reset contents
(R28). -/
def Obligations.CanonicalMemoryIsUnique : Prop :=
  ∀ (font : Font) (m m' : Memory), m.wf font → m'.wf font →
    (∀ a, a < 4096 → m.read font a = m'.read font a) → m = m'

/-! ## Control transfer -/

/-- R100, R177 (D10): MachineCall is what MACHINE_CALL_EFFECT says: the fault with nnn as payload (nothing else
changed: R178, D4), or pc + 2 and nothing else. -/
def Obligations.MachineCallEffects : Prop :=
  ∀ (nnn : Addr) (s : State),
    (s.cfg.machineCallEffect = .fault →
      exec (.machineCall nnn) s = .next { s with fault := some (.machineCallUnsupported nnn) }) ∧
    (s.cfg.machineCallEffect = .nop → exec (.machineCall nnn) s = .next { s with pc := s.pc + 2 })

/-- R102, R104 (general knowledge, D11): Jump goes to nnn, JumpTo to nnn + V0 without wrap to 12 bits; nothing
else changes. -/
def Obligations.JumpTargets : Prop :=
  ∀ (nnn : Addr) (s : State),
    (∃ t, exec (.jump nnn) s = .next t ∧ t = { s with pc := t.pc } ∧ t.pc.toNat = nnn.toNat) ∧
    (∃ t, exec (.jumpTo nnn) s = .next t ∧ t = { s with pc := t.pc } ∧
      t.pc.toNat = nnn.toNat + (s.reg 0).toNat)

/-- R101 (D9, general knowledge): Call with a free slot pushes its own address and goes to nnn; no other slot and
nothing else changes. -/
def Obligations.CallPushesItsAddress : Prop :=
  ∀ (nnn : Addr) (s : State), s.sp.val < 16 →
    ∃ t, exec (.call nnn) s = .next t ∧ t = { s with pc := t.pc, stack := t.stack, sp := t.sp } ∧
      t.pc.toNat = nnn.toNat ∧ t.sp.val = s.sp.val + 1 ∧
      (∀ j (h : j < 16), t.stack[j] = if j = s.sp.val then s.pc else s.stack[j])

/-- R103 (D9, D29): Return with a live slot resumes two bytes past the address it pops and clears nothing. -/
def Obligations.ReturnPopsAndAddsTwo : Prop :=
  ∀ (s : State) (j : Nat) (h : j < 16), s.sp.val = j + 1 →
    ∃ t, exec .ret s = .next t ∧ t = { s with pc := t.pc, sp := t.sp } ∧
      t.pc = s.stack[j] + 2 ∧ t.sp.val = j

/-- R172: Call with all sixteen slots in use faults and nothing is pushed. That the step changes nothing else (timers,
key latch and the rest) is R86 and R178 (D4, log entry 11). -/
def Obligations.StackOverflowFault : Prop :=
  ∀ (s : State) (w : Word) (nnn : Addr), s.fault = none → s.inputs.quit = false → s.fetch = some w →
    decode w = .instr (.call nnn) → s.sp.val = 16 →
    ∃ t, step s = .next t ∧ t = { s with
      fault := some .stackOverflow, alert := false, result := some (.fault .stackOverflow)
      inputs := t.inputs, script := t.script, draws := t.draws }

/-- R173: Return with no slot in use faults. That the step changes nothing else is R86 and R178 (D4, log entry 11). -/
def Obligations.StackUnderflowFault : Prop :=
  ∀ (s : State) (w : Word), s.fault = none → s.inputs.quit = false → s.fetch = some w →
    decode w = .instr .ret → s.sp.val = 0 →
    ∃ t, step s = .next t ∧ t = { s with
      fault := some .stackUnderflow, alert := false, result := some (.fault .stackUnderflow)
      inputs := t.inputs, script := t.script, draws := t.draws }

/-- R101, R103 (D9): whatever runs between them, a Return that finds the stack as a Call left it resumes after that
Call and gives its slot back. That the slot is not cleared is R103's other decision (D29, log entry 14). -/
def Obligations.ReturnResumesAfterCall : Prop :=
  ∀ (nnn : Addr) (s t u : State), s.sp.val < 16 → exec (.call nnn) s = .next t →
    u.stack = t.stack → u.sp = t.sp →
    ∃ v, exec .ret u = .next v ∧ v.pc = s.pc + 2 ∧ v.sp = s.sp ∧ v.stack = t.stack

/-! ## Skips -/

/-- R110 to R112 (general knowledge): the skips on a register and an immediate. -/
def Obligations.SkipsOnValue : Prop :=
  ∀ (x : RegIx) (kk : Byte) (s : State),
    (∃ t, exec (.skipIfEqVal x kk) s = .next t ∧ t = { s with pc := t.pc } ∧
      ((s.reg x).toNat = kk.toNat → t.pc = s.pc + 4) ∧ ((s.reg x).toNat ≠ kk.toNat → t.pc = s.pc + 2)) ∧
    (∃ t, exec (.skipIfNotEqVal x kk) s = .next t ∧ t = { s with pc := t.pc } ∧
      ((s.reg x).toNat ≠ kk.toNat → t.pc = s.pc + 4) ∧ ((s.reg x).toNat = kk.toNat → t.pc = s.pc + 2))

/-- R110, R113, R114 (general knowledge): the skips on two registers. -/
def Obligations.SkipsOnRegisters : Prop :=
  ∀ (x y : RegIx) (s : State),
    (∃ t, exec (.skipIfMatchReg x y) s = .next t ∧ t = { s with pc := t.pc } ∧
      ((s.reg x).toNat = (s.reg y).toNat → t.pc = s.pc + 4) ∧
      ((s.reg x).toNat ≠ (s.reg y).toNat → t.pc = s.pc + 2)) ∧
    (∃ t, exec (.skipIfMismatchReg x y) s = .next t ∧ t = { s with pc := t.pc } ∧
      ((s.reg x).toNat ≠ (s.reg y).toNat → t.pc = s.pc + 4) ∧
      ((s.reg x).toNat = (s.reg y).toNat → t.pc = s.pc + 2))

/-- R110, R115, R116 (general knowledge, D20): the skips on the latch of the key whose number is in V[x]; a
number above 15 is the fault KeyIndexOutOfRange and nothing else (R178, D4). -/
def Obligations.SkipsOnKeys : Prop :=
  ∀ (x : RegIx) (s : State),
    (∀ (k : Nat) (h : k < 16), (s.reg x).toNat = k →
      (∃ t, exec (.skipIfPressed x) s = .next t ∧ t = { s with pc := t.pc } ∧
        (s.key[k] = true → t.pc = s.pc + 4) ∧ (s.key[k] = false → t.pc = s.pc + 2)) ∧
      (∃ t, exec (.skipIfNotPressed x) s = .next t ∧ t = { s with pc := t.pc } ∧
        (s.key[k] = false → t.pc = s.pc + 4) ∧ (s.key[k] = true → t.pc = s.pc + 2))) ∧
    ((s.reg x).toNat > 15 →
      exec (.skipIfPressed x) s = .next { s with fault := some (.keyIndexOutOfRange (s.reg x)) } ∧
      exec (.skipIfNotPressed x) s = .next { s with fault := some (.keyIndexOutOfRange (s.reg x)) })

/-! ## Register loads and ALU -/

/-- R123: Add wraps at 8 bits and writes no flag; VF as destination takes the sum like any register. -/
def Obligations.AddImmediate : Prop :=
  ∀ (x : RegIx) (kk : Byte) (s : State),
    ∃ t, exec (.add x kk) s = .next t ∧ t = { s with v := t.v, pc := t.pc } ∧ t.pc = s.pc + 2 ∧
      (t.reg x).toNat = ((s.reg x).toNat + kk.toNat) % 256 ∧ (∀ r, r ≠ x → t.reg r = s.reg r)

/-- R120, R122, R124 to R127 (general knowledge, D13): the loads and the logic operations write V[x] and no flag. -/
def Obligations.LoadsAndLogic : Prop :=
  ∀ (x y : RegIx) (kk : Byte) (s : State),
    ∀ p ∈ [(Instr.setRegister x kk, kk), (Instr.assign x y, s.reg y), (Instr.or x y, s.reg x ||| s.reg y),
        (Instr.and x y, s.reg x &&& s.reg y), (Instr.xor x y, s.reg x ^^^ s.reg y)],
      ∃ t, exec p.1 s = .next t ∧ t = { s with v := t.v, pc := t.pc } ∧ t.pc = s.pc + 2 ∧
        t.reg x = p.2 ∧ (∀ r, r ≠ x → t.reg r = s.reg r)

/-- R121, R128 (D12 for x = 15): the wrapped sum and the carry, the flag written last. -/
def Obligations.AddAssignCarry : Prop :=
  ∀ (x y : RegIx) (s : State),
    ∃ t, exec (.addAssign x y) s = .next t ∧ t = { s with v := t.v, pc := t.pc } ∧ t.pc = s.pc + 2 ∧
      (t.reg 15).toNat = (if (s.reg x).toNat + (s.reg y).toNat > 255 then 1 else 0) ∧
      (x ≠ 15 → (t.reg x).toNat = ((s.reg x).toNat + (s.reg y).toNat) % 256) ∧
      (∀ r, r ≠ x → r ≠ 15 → t.reg r = s.reg r)

/-- R121, R129, R131 (D12 for x = 15): the wrapped differences; VF = 1 means no borrow; the flag written last. -/
def Obligations.SubtractNoBorrow : Prop :=
  ∀ (x y : RegIx) (s : State),
    (∃ t, exec (.subAssign x y) s = .next t ∧ t = { s with v := t.v, pc := t.pc } ∧ t.pc = s.pc + 2 ∧
      (t.reg 15).toNat = (if (s.reg x).toNat ≥ (s.reg y).toNat then 1 else 0) ∧
      (x ≠ 15 → (t.reg x).toNat = ((s.reg x).toNat + 256 - (s.reg y).toNat) % 256) ∧
      (∀ r, r ≠ x → r ≠ 15 → t.reg r = s.reg r)) ∧
    (∃ t, exec (.flippedSubAssign x y) s = .next t ∧ t = { s with v := t.v, pc := t.pc } ∧ t.pc = s.pc + 2 ∧
      (t.reg 15).toNat = (if (s.reg y).toNat ≥ (s.reg x).toNat then 1 else 0) ∧
      (x ≠ 15 → (t.reg x).toNat = ((s.reg y).toNat + 256 - (s.reg x).toNat) % 256) ∧
      (∀ r, r ≠ x → r ≠ 15 → t.reg r = s.reg r))

/-- R121, R130, R132 (D12 for x = 15): the shifts of V[x] in place, the bit shifted out to VF, written last. -/
def Obligations.ShiftsByOne : Prop :=
  ∀ (x : RegIx) (s : State),
    (∃ t, exec (.shiftRight x) s = .next t ∧ t = { s with v := t.v, pc := t.pc } ∧ t.pc = s.pc + 2 ∧
      (t.reg 15).toNat = (s.reg x).toNat % 2 ∧ (x ≠ 15 → (t.reg x).toNat = (s.reg x).toNat / 2) ∧
      (∀ r, r ≠ x → r ≠ 15 → t.reg r = s.reg r)) ∧
    (∃ t, exec (.shiftLeft x) s = .next t ∧ t = { s with v := t.v, pc := t.pc } ∧ t.pc = s.pc + 2 ∧
      (t.reg 15).toNat = (s.reg x).toNat / 128 ∧ (x ≠ 15 → (t.reg x).toNat = (s.reg x).toNat * 2 % 256) ∧
      (∀ r, r ≠ x → r ≠ 15 → t.reg r = s.reg r))

/-! ## Index and memory -/

/-- R140, R142 (general knowledge, D23): SetIdx and NewSprite write idx and nothing else but pc. -/
def Obligations.IndexLoads : Prop :=
  ∀ (nnn : Addr) (x : RegIx) (s : State),
    (∃ t, exec (.setIdx nnn) s = .next t ∧ t = { s with idx := t.idx, pc := t.pc } ∧ t.pc = s.pc + 2 ∧
      t.idx.toNat = nnn.toNat) ∧
    (∃ t, exec (.newSprite x) s = .next t ∧ t = { s with idx := t.idx, pc := t.pc } ∧ t.pc = s.pc + 2 ∧
      t.idx.toNat = 5 * (s.reg x).toNat)

/-- R141 (D14, D12): idx + V[x] modulo the open parameter; VF says whether the sum passed 0xFFF. -/
def Obligations.IndexIncrement : Prop :=
  ∀ (x : RegIx) (s : State),
    ∃ t, exec (.incrementIdx x) s = .next t ∧ t = { s with idx := t.idx, v := t.v, pc := t.pc } ∧
      t.pc = s.pc + 2 ∧
      (s.cfg.idxAddModulus = .carry12 → t.idx.toNat = (s.idx.toNat + (s.reg x).toNat) % 0x1000) ∧
      (s.cfg.idxAddModulus = .literalFFF → t.idx.toNat = (s.idx.toNat + (s.reg x).toNat) % 0xFFF) ∧
      (t.reg 15).toNat = (if s.idx.toNat + (s.reg x).toNat > 0xFFF then 1 else 0) ∧
      (∀ r, r ≠ 15 → t.reg r = s.reg r)

/-- R143, R146 (D6 and D4 for the fault): hundreds, tens and ones at idx, idx + 1, idx + 2, and every other byte as
before; a range that passes 0xFFF is the fault MemOutOfRange and nothing is written. That every address is writable,
below 0x200 too, is D7 (R48, log entry 13). -/
def Obligations.BcdStores : Prop :=
  ∀ (x : RegIx) (s : State),
    (s.idx.toNat + 2 ≤ 0xFFF →
      ∃ t, exec (.bcd x) s = .next t ∧ t = { s with mem := t.mem, pc := t.pc } ∧ t.pc = s.pc + 2 ∧
        (t.memRead (s.dataAddr 0)).toNat = (s.reg x).toNat / 100 ∧
        (t.memRead (s.dataAddr 1)).toNat = (s.reg x).toNat / 10 % 10 ∧
        (t.memRead (s.dataAddr 2)).toNat = (s.reg x).toNat % 10 ∧
        (∀ a, (a < s.dataAddr 0 ∨ s.dataAddr 0 + 3 ≤ a) → t.memRead a = s.memRead a)) ∧
    (s.idx.toNat ≤ 0xFFF → s.idx.toNat ≥ 0xFFE →
      exec (.bcd x) s = .next { s with fault := some (.memOutOfRange 0x1000) })

/-- R144, R146 (D6 and D4 for the fault): V[i] at idx + i for i in 0 to x, and every other byte as before; idx and the
registers unchanged; a range that passes 0xFFF is the fault MemOutOfRange and nothing is written. That every address
is writable, below 0x200 too, is D7 (R48, log entry 13). -/
def Obligations.DumpStores : Prop :=
  ∀ (x : RegIx) (s : State),
    (s.idx.toNat + x.val ≤ 0xFFF →
      ∃ t, exec (.dumpRegisters x) s = .next t ∧ t = { s with mem := t.mem, pc := t.pc } ∧ t.pc = s.pc + 2 ∧
        (∀ r : RegIx, r ≤ x → t.memRead (s.dataAddr r.val) = s.reg r) ∧
        (∀ a, (a < s.dataAddr 0 ∨ s.dataAddr 0 + (x.val + 1) ≤ a) → t.memRead a = s.memRead a)) ∧
    (s.idx.toNat ≤ 0xFFF → s.idx.toNat + x.val > 0xFFF →
      exec (.dumpRegisters x) s = .next { s with fault := some (.memOutOfRange 0x1000) })

/-- R145, R146 (D6 and D4 for the fault): V[i] from idx + i for i in 0 to x; registers above x, idx and memory
unchanged; a range that passes 0xFFF is the fault MemOutOfRange and no register is written. -/
def Obligations.FillLoads : Prop :=
  ∀ (x : RegIx) (s : State),
    (s.idx.toNat + x.val ≤ 0xFFF →
      ∃ t, exec (.fillRegisters x) s = .next t ∧ t = { s with v := t.v, pc := t.pc } ∧ t.pc = s.pc + 2 ∧
        (∀ r : RegIx, r ≤ x → t.reg r = s.memRead (s.dataAddr r.val)) ∧
        (∀ r : RegIx, x < r → t.reg r = s.reg r)) ∧
    (s.idx.toNat ≤ 0xFFF → s.idx.toNat + x.val > 0xFFF →
      exec (.fillRegisters x) s = .next { s with fault := some (.memOutOfRange 0x1000) })

/-- R144, R145 (derived from both): FillRegisters over what DumpRegisters left brings V0 to Vx back, whatever happened
to the registers in between. The range is D6 (R146); that every address is writable is D7 (R48, log entry 13). -/
def Obligations.FillRestoresDump : Prop :=
  ∀ (x : RegIx) (s t u : State), s.idx.toNat + x.val ≤ 0xFFF → exec (.dumpRegisters x) s = .next t →
    u.mem = t.mem → u.idx = t.idx → u.cfg = t.cfg →
    ∃ v, exec (.fillRegisters x) u = .next v ∧ ∀ r : RegIx, r ≤ x → v.reg r = s.reg r

/-- R51, R43 (derived by the spec): a store is seen by the very next fetch, and the byte at the lower address is the
high half: two registers dumped side by side are fetched as one word. R51 rests on R49 (D31); a fetch at any address
is D8 (R44), a store to any D7 (R48; log entry 13), the range D6 (R146). -/
def Obligations.StoreIsSeenByNextFetch : Prop :=
  ∀ (x r : RegIx) (s t : State), s.idx.toNat + x.val ≤ 0xFFF → exec (.dumpRegisters x) s = .next t →
    ∀ h : r.val < x.val,
      ∃ w : Word, ({ t with pc := BitVec.ofNat 16 (s.dataAddr r.val) } : State).fetch = some w ∧
        w.toNat = (s.reg r).toNat * 256 + (s.reg ⟨r.val + 1, by omega⟩).toNat

/-! ## Display -/

/-- R150: every pixel 0, draw_flag set, pc + 2; VF and all the rest unchanged. -/
def Obligations.ClearScreenBlanks : Prop :=
  ∀ s : State,
    ∃ t, exec .clearScreen s = .next t ∧
      t = { s with screen := t.screen, drawFlag := true, pc := s.pc + 2 } ∧
      ∀ px py, pixel t.screen px py = false

/-- R151 (D16, D17, D18; D19 for the unconditional draw_flag; D6 and D4 for the fault): a pixel changes exactly if
the sprite has a 1 bit on it; VF is 1 if such a pixel was 1 before, else 0; draw_flag is set, pc + 2, all the rest
unchanged. n = 0 draws nothing and cannot fault; a range that passes 0xFFF is the fault MemOutOfRange and nothing is
drawn. -/
def Obligations.DrawXorsSprite : Prop :=
  ∀ (x y : RegIx) (n : Fin 16) (s : State),
    ((n.val = 0 ∨ s.idx.toNat + n.val - 1 ≤ 0xFFF) →
      ∃ t, exec (.draw x y n) s = .next t ∧
        t = { s with v := t.v, screen := t.screen, drawFlag := true, pc := s.pc + 2 } ∧
        (∀ r, r ≠ 15 → t.reg r = s.reg r) ∧
        (∀ px py,
          (spriteCovers s x y n.val px py → pixel t.screen px py = !pixel s.screen px py) ∧
          (¬ spriteCovers s x y n.val px py → pixel t.screen px py = pixel s.screen px py)) ∧
        ((∃ px py, spriteCovers s x y n.val px py ∧ pixel s.screen px py = true) → t.reg 15 = 1) ∧
        ((¬ ∃ px py, spriteCovers s x y n.val px py ∧ pixel s.screen px py = true) → t.reg 15 = 0)) ∧
    (n.val ≥ 1 → s.idx.toNat ≤ 0xFFF → s.idx.toNat + n.val - 1 > 0xFFF →
      exec (.draw x y n) s = .next { s with fault := some (.memOutOfRange 0x1000) })

/-- R152 (derived by the spec): Draw is its own inverse on the screen: drawn again with the same coordinates and the
same sprite, whatever else has changed, the screen is what it was before the first. R151 reads the coordinates before
it clears VF (D16); the range is D6 (R146). -/
def Obligations.DrawTwiceRestores : Prop :=
  ∀ (x y : RegIx) (n : Fin 16) (s t u : State), (n.val = 0 ∨ s.idx.toNat + n.val - 1 ≤ 0xFFF) →
    exec (.draw x y n) s = .next t →
    u.screen = t.screen → u.reg x = s.reg x → u.reg y = s.reg y → u.idx = s.idx →
    (∀ a, u.memRead a = s.memRead a) →
    ∃ v, exec (.draw x y n) u = .next v ∧ v.screen = s.screen

/-! ## Timers, keys, random -/

/-- R160 to R162 (general knowledge): StoreDelay reads dt as it is before the step's tick; SetDelay and SetSound
set a timer; nothing else but pc changes. -/
def Obligations.TimerAccess : Prop :=
  ∀ (x : RegIx) (s : State),
    (∃ t, exec (.storeDelay x) s = .next t ∧ t = { s with v := t.v, pc := t.pc } ∧ t.pc = s.pc + 2 ∧
      t.reg x = s.dt ∧ (∀ r, r ≠ x → t.reg r = s.reg r)) ∧
    (∃ t, exec (.setDelay x) s = .next t ∧ t = { s with dt := t.dt, pc := t.pc } ∧ t.pc = s.pc + 2 ∧
      t.dt.toNat = (s.reg x).toNat) ∧
    (∃ t, exec (.setSound x) s = .next t ∧ t = { s with st := t.st, pc := t.pc } ∧ t.pc = s.pc + 2 ∧
      t.st.toNat = (s.reg x).toNat)

/-- R163 (D21 for several keys): with no key latched nothing changes, pc included; else the smallest latched
number goes to V[x] and pc advances. -/
def Obligations.WaitKeyEffect : Prop :=
  ∀ (x : RegIx) (s : State),
    ((∀ k (h : k < 16), s.key[k] = false) → exec (.waitKey x) s = .next s) ∧
    (∀ k (h : k < 16), s.key[k] = true → (∀ j (h' : j < 16), j < k → s.key[j] = false) →
      ∃ t, exec (.waitKey x) s = .next t ∧ t = { s with v := t.v, pc := t.pc } ∧ t.pc = s.pc + 2 ∧
        (t.reg x).toNat = k ∧ (∀ r, r ≠ x → t.reg r = s.reg r))

/-- R164, R24 (D28): Rand writes the byte on `rnd_in` masked with kk and no flag; and no other instruction's effect
depends on what any input port shows. The ports are D2 (R24, log entry 28). -/
def Obligations.RandMasksInput : Prop :=
  (∀ (x : RegIx) (kk : Byte) (s : State),
    ∃ t, exec (.rand x kk) s = .next t ∧ t = { s with v := t.v, pc := t.pc } ∧ t.pc = s.pc + 2 ∧
      t.reg x = s.inputs.rnd &&& kk ∧ (∀ r, r ≠ x → t.reg r = s.reg r)) ∧
  (∀ (i : Instr) (s t : State) (inp : Inputs), (∀ x kk, i ≠ .rand x kk) → exec i s = .next t →
    exec i { s with inputs := inp } = .next { t with inputs := inp })

/-- R163, R87 to R89 (S8 and C13; D26; D21 for the smallest of several keys): a machine at a WaitKey with no key
latched, whose ports show no key and no quit for n steps, completes n steps with pc, registers and memory as they were
while both timers run down and the alert pulses at the n-th step exactly if the sound timer stood at n. When a key
then shows on the port, that step still waits and the next one stores the smallest key and advances. How the ports
show what they show at later steps is the model's own (log entry 2, DESIGN CHOICE). -/
def Obligations.WaitKeyWaits : Prop :=
  (∀ (n : Nat) (s : State) (w : Word) (x : RegIx),
    s.fault = none → s.fetch = some w → decode w = .instr (.waitKey x) →
    (∀ k (h : k < 16), s.key[k] = false) → n ≤ s.script.length + 1 →
    (∀ inp ∈ (s.inputs :: s.script).take n, inp.quit = false ∧ inp.keys = 0) →
    ∃ t, Sys2Proof.core.run n s = .next t ∧ t.pc = s.pc ∧ t.v = s.v ∧ t.mem = s.mem ∧ t.screen = s.screen ∧
      t.fault = none ∧ (∀ k (h : k < 16), t.key[k] = false) ∧
      t.dt.toNat = s.dt.toNat - n ∧ t.st.toNat = s.st.toNat - n ∧
      (0 < n → t.result = some .completed ∧ (t.alert = true ↔ s.st.toNat = n))) ∧
  (∀ (s : State) (w : Word) (x : RegIx) (next : Inputs) (rest : List Inputs) (k : Nat),
    s.fault = none → s.fetch = some w → decode w = .instr (.waitKey x) →
    (∀ j (h : j < 16), s.key[j] = false) → s.inputs.quit = false → s.script = next :: rest →
    next.quit = false → k < 16 → s.inputs.keys.getLsbD k = true →
    (∀ j, j < k → s.inputs.keys.getLsbD j = false) →
    ∃ t u, step s = .next t ∧ t.pc = s.pc ∧ t.v = s.v ∧
      step t = .next u ∧ u.pc = s.pc + 2 ∧ (u.reg x).toNat = k)

/-! ## Reset, load, the end of a run -/

/-- R28, R200, R201 (D15, D32): the reset event puts every piece of state at its reset value, whatever it was; memory
below 0x050 then holds the FONT of the machine that is reset. That the alert is false after a reset is the model's own
(log entry 4, DESIGN CHOICE). A reset leaves State.reset as it is, the model's input fields too (log entry 32,
DEDUCED), and two of its parameters are the defaults of R6 (D10, D14; log entry 5, DESIGN CHOICE); of its FONT nothing
is stated. The latch is D4, FONT is D22. -/
def Obligations.ResetValues : Prop :=
  (∀ s : State,
    (∀ r, s.resetEvent.reg r = 0) ∧ s.resetEvent.idx = 0 ∧ s.resetEvent.pc = 0x200 ∧
    s.resetEvent.sp.val = 0 ∧ (∀ j (h : j < 16), s.resetEvent.stack[j] = 0) ∧
    s.resetEvent.dt = 0 ∧ s.resetEvent.st = 0 ∧
    (∀ a (h : a < 80), s.resetEvent.memRead a = s.cfg.font[a]) ∧
    (∀ a, 80 ≤ a → s.resetEvent.memRead a = 0) ∧
    (∀ px py, pixel s.resetEvent.screen px py = false) ∧
    (∀ k (h : k < 16), s.resetEvent.key[k] = false) ∧
    s.resetEvent.drawFlag = true ∧ s.resetEvent.fault = none ∧ s.resetEvent.alert = false) ∧
  State.reset.resetEvent = State.reset ∧ State.reset.cfg.machineCallEffect = .fault ∧
  State.reset.cfg.idxAddModulus = .carry12

/-- R202: a load of at most 3584 bytes leaves the reset state with the bytes from 0x200 on and every other byte of
memory as after reset, and reports their number; nothing of the machine's state before is retained. That the open
parameters and the model's input fields stay is log entry 32 (DEDUCED); that a longer one is refused with the machine
untouched is R203 (D27, log entry 27). The reset state a load starts from is R28 (D15, log entry 20). -/
def Obligations.LoadResetsAndCopies : Prop :=
  ∀ (s : State) (rom : List Byte),
    (rom.length ≤ 3584 →
      (s.load rom).2 = .loaded rom.length ∧
      (s.load rom).1 = { s.resetEvent with mem := (s.load rom).1.mem } ∧
      (∀ i (h : i < rom.length), (s.load rom).1.memRead (0x200 + i) = rom[i]) ∧
      (∀ a, (a < 0x200 ∨ 0x200 + rom.length ≤ a) →
        (s.load rom).1.memRead a = s.resetEvent.memRead a) ∧
      (∀ s' : State, s'.cfg = s.cfg → (s'.load rom).1 =
        { (s.load rom).1 with inputs := s'.inputs, script := s'.script, draws := s'.draws })) ∧
    (rom.length > 3584 → s.load rom = (s, .romTooLarge))

/-- R207's convention (D35): a machine that stands on a jump to itself stays there, however many steps follow and
whatever the inputs: registers, idx, pc, stack, memory and screen keep their values. The plain meaning of Jump is
general knowledge (R102, log entry 30, PRESUMED); a quitting step changes nothing by D24 (R82). -/
def Obligations.FinishedStaysFinished : Prop :=
  ∀ (n : Nat) (s t : State), s.fault = none → s.finished = true → Sys2Proof.core.run n s = .next t →
    t.finished = true ∧ t.fault = none ∧ t.v = s.v ∧ t.idx = s.idx ∧ t.pc = s.pc ∧ t.sp = s.sp ∧
      t.stack = s.stack ∧ t.mem = s.mem ∧ t.screen = s.screen

/-- The host's placing of a word (log entry 6): the next step fetches exactly that word and nothing keeps it from
doing so. -/
def Obligations.PlacedWordIsFetched : Prop :=
  ∀ (s : State) (w : Word),
    (s.withFetchWord 16 w.toNat).fetch = some w ∧ (s.withFetchWord 16 w.toNat).running
end

