-- ==== Sys2Proof/Laws/State.lean ====
section
/-! SUPPORT. One lemma for each field and each update of State: what the update leaves in the field. -/

namespace Sys2Proof.Machine

variable (s : State)

/-! ### `State.setReg` -/

@[simp] theorem State.setReg_v (x : RegIx) (b : Byte) : (s.setReg x b).v = s.v.set x.val b := rfl
@[simp] theorem State.setReg_idx (x : RegIx) (b : Byte) : (s.setReg x b).idx = s.idx := rfl
@[simp] theorem State.setReg_pc (x : RegIx) (b : Byte) : (s.setReg x b).pc = s.pc := rfl
@[simp] theorem State.setReg_stack (x : RegIx) (b : Byte) : (s.setReg x b).stack = s.stack := rfl
@[simp] theorem State.setReg_sp (x : RegIx) (b : Byte) : (s.setReg x b).sp = s.sp := rfl
@[simp] theorem State.setReg_dt (x : RegIx) (b : Byte) : (s.setReg x b).dt = s.dt := rfl
@[simp] theorem State.setReg_st (x : RegIx) (b : Byte) : (s.setReg x b).st = s.st := rfl
@[simp] theorem State.setReg_mem (x : RegIx) (b : Byte) : (s.setReg x b).mem = s.mem := rfl
@[simp] theorem State.setReg_screen (x : RegIx) (b : Byte) : (s.setReg x b).screen = s.screen := rfl
@[simp] theorem State.setReg_key (x : RegIx) (b : Byte) : (s.setReg x b).key = s.key := rfl
@[simp] theorem State.setReg_drawFlag (x : RegIx) (b : Byte) : (s.setReg x b).drawFlag = s.drawFlag := rfl
@[simp] theorem State.setReg_fault (x : RegIx) (b : Byte) : (s.setReg x b).fault = s.fault := rfl
@[simp] theorem State.setReg_alert (x : RegIx) (b : Byte) : (s.setReg x b).alert = s.alert := rfl
@[simp] theorem State.setReg_result (x : RegIx) (b : Byte) : (s.setReg x b).result = s.result := rfl
@[simp] theorem State.setReg_inputs (x : RegIx) (b : Byte) : (s.setReg x b).inputs = s.inputs := rfl
@[simp] theorem State.setReg_script (x : RegIx) (b : Byte) : (s.setReg x b).script = s.script := rfl
@[simp] theorem State.setReg_draws (x : RegIx) (b : Byte) : (s.setReg x b).draws = s.draws := rfl
@[simp] theorem State.setReg_cfg (x : RegIx) (b : Byte) : (s.setReg x b).cfg = s.cfg := rfl
@[simp] theorem State.setReg_memRead (x : RegIx) (b : Byte) (k : Nat) : (s.setReg x b).memRead k = s.memRead k := rfl

/-! ### `State.advance` -/

@[simp] theorem State.advance_v : (s.advance).v = s.v := rfl
@[simp] theorem State.advance_idx : (s.advance).idx = s.idx := rfl
@[simp] theorem State.advance_pc : (s.advance).pc = s.pc + 2 := rfl
@[simp] theorem State.advance_stack : (s.advance).stack = s.stack := rfl
@[simp] theorem State.advance_sp : (s.advance).sp = s.sp := rfl
@[simp] theorem State.advance_dt : (s.advance).dt = s.dt := rfl
@[simp] theorem State.advance_st : (s.advance).st = s.st := rfl
@[simp] theorem State.advance_mem : (s.advance).mem = s.mem := rfl
@[simp] theorem State.advance_screen : (s.advance).screen = s.screen := rfl
@[simp] theorem State.advance_key : (s.advance).key = s.key := rfl
@[simp] theorem State.advance_drawFlag : (s.advance).drawFlag = s.drawFlag := rfl
@[simp] theorem State.advance_fault : (s.advance).fault = s.fault := rfl
@[simp] theorem State.advance_alert : (s.advance).alert = s.alert := rfl
@[simp] theorem State.advance_result : (s.advance).result = s.result := rfl
@[simp] theorem State.advance_inputs : (s.advance).inputs = s.inputs := rfl
@[simp] theorem State.advance_script : (s.advance).script = s.script := rfl
@[simp] theorem State.advance_draws : (s.advance).draws = s.draws := rfl
@[simp] theorem State.advance_cfg : (s.advance).cfg = s.cfg := rfl
@[simp] theorem State.advance_reg (r : RegIx) : (s.advance).reg r = s.reg r := rfl
@[simp] theorem State.advance_memRead (k : Nat) : (s.advance).memRead k = s.memRead k := rfl

/-! ### `State.skipIf` -/

@[simp] theorem State.skipIf_v (p : Bool) : (s.skipIf p).v = s.v := rfl
@[simp] theorem State.skipIf_idx (p : Bool) : (s.skipIf p).idx = s.idx := rfl
@[simp] theorem State.skipIf_pc (p : Bool) : (s.skipIf p).pc = s.pc + (if p then 4 else 2) := rfl
@[simp] theorem State.skipIf_stack (p : Bool) : (s.skipIf p).stack = s.stack := rfl
@[simp] theorem State.skipIf_sp (p : Bool) : (s.skipIf p).sp = s.sp := rfl
@[simp] theorem State.skipIf_dt (p : Bool) : (s.skipIf p).dt = s.dt := rfl
@[simp] theorem State.skipIf_st (p : Bool) : (s.skipIf p).st = s.st := rfl
@[simp] theorem State.skipIf_mem (p : Bool) : (s.skipIf p).mem = s.mem := rfl
@[simp] theorem State.skipIf_screen (p : Bool) : (s.skipIf p).screen = s.screen := rfl
@[simp] theorem State.skipIf_key (p : Bool) : (s.skipIf p).key = s.key := rfl
@[simp] theorem State.skipIf_drawFlag (p : Bool) : (s.skipIf p).drawFlag = s.drawFlag := rfl
@[simp] theorem State.skipIf_fault (p : Bool) : (s.skipIf p).fault = s.fault := rfl
@[simp] theorem State.skipIf_alert (p : Bool) : (s.skipIf p).alert = s.alert := rfl
@[simp] theorem State.skipIf_result (p : Bool) : (s.skipIf p).result = s.result := rfl
@[simp] theorem State.skipIf_inputs (p : Bool) : (s.skipIf p).inputs = s.inputs := rfl
@[simp] theorem State.skipIf_script (p : Bool) : (s.skipIf p).script = s.script := rfl
@[simp] theorem State.skipIf_draws (p : Bool) : (s.skipIf p).draws = s.draws := rfl
@[simp] theorem State.skipIf_cfg (p : Bool) : (s.skipIf p).cfg = s.cfg := rfl
@[simp] theorem State.skipIf_reg (p : Bool) (r : RegIx) : (s.skipIf p).reg r = s.reg r := rfl
@[simp] theorem State.skipIf_memRead (p : Bool) (k : Nat) : (s.skipIf p).memRead k = s.memRead k := rfl

/-! ### `State.goto` -/

@[simp] theorem State.goto_v (a : Word) : (s.goto a).v = s.v := rfl
@[simp] theorem State.goto_idx (a : Word) : (s.goto a).idx = s.idx := rfl
@[simp] theorem State.goto_pc (a : Word) : (s.goto a).pc = a := rfl
@[simp] theorem State.goto_stack (a : Word) : (s.goto a).stack = s.stack := rfl
@[simp] theorem State.goto_sp (a : Word) : (s.goto a).sp = s.sp := rfl
@[simp] theorem State.goto_dt (a : Word) : (s.goto a).dt = s.dt := rfl
@[simp] theorem State.goto_st (a : Word) : (s.goto a).st = s.st := rfl
@[simp] theorem State.goto_mem (a : Word) : (s.goto a).mem = s.mem := rfl
@[simp] theorem State.goto_screen (a : Word) : (s.goto a).screen = s.screen := rfl
@[simp] theorem State.goto_key (a : Word) : (s.goto a).key = s.key := rfl
@[simp] theorem State.goto_drawFlag (a : Word) : (s.goto a).drawFlag = s.drawFlag := rfl
@[simp] theorem State.goto_fault (a : Word) : (s.goto a).fault = s.fault := rfl
@[simp] theorem State.goto_alert (a : Word) : (s.goto a).alert = s.alert := rfl
@[simp] theorem State.goto_result (a : Word) : (s.goto a).result = s.result := rfl
@[simp] theorem State.goto_inputs (a : Word) : (s.goto a).inputs = s.inputs := rfl
@[simp] theorem State.goto_script (a : Word) : (s.goto a).script = s.script := rfl
@[simp] theorem State.goto_draws (a : Word) : (s.goto a).draws = s.draws := rfl
@[simp] theorem State.goto_cfg (a : Word) : (s.goto a).cfg = s.cfg := rfl
@[simp] theorem State.goto_reg (a : Word) (r : RegIx) : (s.goto a).reg r = s.reg r := rfl
@[simp] theorem State.goto_memRead (a : Word) (k : Nat) : (s.goto a).memRead k = s.memRead k := rfl

/-! ### `State.raise` -/

@[simp] theorem State.raise_v (f : Fault) : (s.raise f).v = s.v := rfl
@[simp] theorem State.raise_idx (f : Fault) : (s.raise f).idx = s.idx := rfl
@[simp] theorem State.raise_pc (f : Fault) : (s.raise f).pc = s.pc := rfl
@[simp] theorem State.raise_stack (f : Fault) : (s.raise f).stack = s.stack := rfl
@[simp] theorem State.raise_sp (f : Fault) : (s.raise f).sp = s.sp := rfl
@[simp] theorem State.raise_dt (f : Fault) : (s.raise f).dt = s.dt := rfl
@[simp] theorem State.raise_st (f : Fault) : (s.raise f).st = s.st := rfl
@[simp] theorem State.raise_mem (f : Fault) : (s.raise f).mem = s.mem := rfl
@[simp] theorem State.raise_screen (f : Fault) : (s.raise f).screen = s.screen := rfl
@[simp] theorem State.raise_key (f : Fault) : (s.raise f).key = s.key := rfl
@[simp] theorem State.raise_drawFlag (f : Fault) : (s.raise f).drawFlag = s.drawFlag := rfl
@[simp] theorem State.raise_fault (f : Fault) : (s.raise f).fault = some f := rfl
@[simp] theorem State.raise_alert (f : Fault) : (s.raise f).alert = s.alert := rfl
@[simp] theorem State.raise_result (f : Fault) : (s.raise f).result = s.result := rfl
@[simp] theorem State.raise_inputs (f : Fault) : (s.raise f).inputs = s.inputs := rfl
@[simp] theorem State.raise_script (f : Fault) : (s.raise f).script = s.script := rfl
@[simp] theorem State.raise_draws (f : Fault) : (s.raise f).draws = s.draws := rfl
@[simp] theorem State.raise_cfg (f : Fault) : (s.raise f).cfg = s.cfg := rfl
@[simp] theorem State.raise_reg (f : Fault) (r : RegIx) : (s.raise f).reg r = s.reg r := rfl
@[simp] theorem State.raise_memRead (f : Fault) (k : Nat) : (s.raise f).memRead k = s.memRead k := rfl

/-! ### `State.setIdx` -/

@[simp] theorem State.setIdx_v (a : Word) : (s.setIdx a).v = s.v := rfl
@[simp] theorem State.setIdx_idx (a : Word) : (s.setIdx a).idx = a := rfl
@[simp] theorem State.setIdx_pc (a : Word) : (s.setIdx a).pc = s.pc := rfl
@[simp] theorem State.setIdx_stack (a : Word) : (s.setIdx a).stack = s.stack := rfl
@[simp] theorem State.setIdx_sp (a : Word) : (s.setIdx a).sp = s.sp := rfl
@[simp] theorem State.setIdx_dt (a : Word) : (s.setIdx a).dt = s.dt := rfl
@[simp] theorem State.setIdx_st (a : Word) : (s.setIdx a).st = s.st := rfl
@[simp] theorem State.setIdx_mem (a : Word) : (s.setIdx a).mem = s.mem := rfl
@[simp] theorem State.setIdx_screen (a : Word) : (s.setIdx a).screen = s.screen := rfl
@[simp] theorem State.setIdx_key (a : Word) : (s.setIdx a).key = s.key := rfl
@[simp] theorem State.setIdx_drawFlag (a : Word) : (s.setIdx a).drawFlag = s.drawFlag := rfl
@[simp] theorem State.setIdx_fault (a : Word) : (s.setIdx a).fault = s.fault := rfl
@[simp] theorem State.setIdx_alert (a : Word) : (s.setIdx a).alert = s.alert := rfl
@[simp] theorem State.setIdx_result (a : Word) : (s.setIdx a).result = s.result := rfl
@[simp] theorem State.setIdx_inputs (a : Word) : (s.setIdx a).inputs = s.inputs := rfl
@[simp] theorem State.setIdx_script (a : Word) : (s.setIdx a).script = s.script := rfl
@[simp] theorem State.setIdx_draws (a : Word) : (s.setIdx a).draws = s.draws := rfl
@[simp] theorem State.setIdx_cfg (a : Word) : (s.setIdx a).cfg = s.cfg := rfl
@[simp] theorem State.setIdx_reg (a : Word) (r : RegIx) : (s.setIdx a).reg r = s.reg r := rfl
@[simp] theorem State.setIdx_memRead (a : Word) (k : Nat) : (s.setIdx a).memRead k = s.memRead k := rfl

/-! ### `State.memWrite` -/

@[simp] theorem State.memWrite_v (a : Nat) (b : Byte) : (s.memWrite a b).v = s.v := rfl
@[simp] theorem State.memWrite_idx (a : Nat) (b : Byte) : (s.memWrite a b).idx = s.idx := rfl
@[simp] theorem State.memWrite_pc (a : Nat) (b : Byte) : (s.memWrite a b).pc = s.pc := rfl
@[simp] theorem State.memWrite_stack (a : Nat) (b : Byte) : (s.memWrite a b).stack = s.stack := rfl
@[simp] theorem State.memWrite_sp (a : Nat) (b : Byte) : (s.memWrite a b).sp = s.sp := rfl
@[simp] theorem State.memWrite_dt (a : Nat) (b : Byte) : (s.memWrite a b).dt = s.dt := rfl
@[simp] theorem State.memWrite_st (a : Nat) (b : Byte) : (s.memWrite a b).st = s.st := rfl
@[simp] theorem State.memWrite_mem (a : Nat) (b : Byte) : (s.memWrite a b).mem = Memory.write s.cfg.font s.mem a b := rfl
@[simp] theorem State.memWrite_screen (a : Nat) (b : Byte) : (s.memWrite a b).screen = s.screen := rfl
@[simp] theorem State.memWrite_key (a : Nat) (b : Byte) : (s.memWrite a b).key = s.key := rfl
@[simp] theorem State.memWrite_drawFlag (a : Nat) (b : Byte) : (s.memWrite a b).drawFlag = s.drawFlag := rfl
@[simp] theorem State.memWrite_fault (a : Nat) (b : Byte) : (s.memWrite a b).fault = s.fault := rfl
@[simp] theorem State.memWrite_alert (a : Nat) (b : Byte) : (s.memWrite a b).alert = s.alert := rfl
@[simp] theorem State.memWrite_result (a : Nat) (b : Byte) : (s.memWrite a b).result = s.result := rfl
@[simp] theorem State.memWrite_inputs (a : Nat) (b : Byte) : (s.memWrite a b).inputs = s.inputs := rfl
@[simp] theorem State.memWrite_script (a : Nat) (b : Byte) : (s.memWrite a b).script = s.script := rfl
@[simp] theorem State.memWrite_draws (a : Nat) (b : Byte) : (s.memWrite a b).draws = s.draws := rfl
@[simp] theorem State.memWrite_cfg (a : Nat) (b : Byte) : (s.memWrite a b).cfg = s.cfg := rfl
@[simp] theorem State.memWrite_reg (a : Nat) (b : Byte) (r : RegIx) : (s.memWrite a b).reg r = s.reg r := rfl

/-! ### `State.loadRegs` -/

@[simp] theorem State.loadRegs_v (x : RegIx) : (s.loadRegs x).v = s.loadedRegs x := by dsimp only [State.loadRegs]
@[simp] theorem State.loadRegs_idx (x : RegIx) : (s.loadRegs x).idx = s.idx := by dsimp only [State.loadRegs]
@[simp] theorem State.loadRegs_pc (x : RegIx) : (s.loadRegs x).pc = s.pc := by dsimp only [State.loadRegs]
@[simp] theorem State.loadRegs_stack (x : RegIx) : (s.loadRegs x).stack = s.stack := by dsimp only [State.loadRegs]
@[simp] theorem State.loadRegs_sp (x : RegIx) : (s.loadRegs x).sp = s.sp := by dsimp only [State.loadRegs]
@[simp] theorem State.loadRegs_dt (x : RegIx) : (s.loadRegs x).dt = s.dt := by dsimp only [State.loadRegs]
@[simp] theorem State.loadRegs_st (x : RegIx) : (s.loadRegs x).st = s.st := by dsimp only [State.loadRegs]
@[simp] theorem State.loadRegs_mem (x : RegIx) : (s.loadRegs x).mem = s.mem := by dsimp only [State.loadRegs]
@[simp] theorem State.loadRegs_screen (x : RegIx) : (s.loadRegs x).screen = s.screen := by dsimp only [State.loadRegs]
@[simp] theorem State.loadRegs_key (x : RegIx) : (s.loadRegs x).key = s.key := by dsimp only [State.loadRegs]
@[simp] theorem State.loadRegs_drawFlag (x : RegIx) : (s.loadRegs x).drawFlag = s.drawFlag := by dsimp only [State.loadRegs]
@[simp] theorem State.loadRegs_fault (x : RegIx) : (s.loadRegs x).fault = s.fault := by dsimp only [State.loadRegs]
@[simp] theorem State.loadRegs_alert (x : RegIx) : (s.loadRegs x).alert = s.alert := by dsimp only [State.loadRegs]
@[simp] theorem State.loadRegs_result (x : RegIx) : (s.loadRegs x).result = s.result := by dsimp only [State.loadRegs]
@[simp] theorem State.loadRegs_inputs (x : RegIx) : (s.loadRegs x).inputs = s.inputs := by dsimp only [State.loadRegs]
@[simp] theorem State.loadRegs_script (x : RegIx) : (s.loadRegs x).script = s.script := by dsimp only [State.loadRegs]
@[simp] theorem State.loadRegs_draws (x : RegIx) : (s.loadRegs x).draws = s.draws := by dsimp only [State.loadRegs]
@[simp] theorem State.loadRegs_cfg (x : RegIx) : (s.loadRegs x).cfg = s.cfg := by dsimp only [State.loadRegs]
@[simp] theorem State.loadRegs_memRead (x : RegIx) (k : Nat) : (s.loadRegs x).memRead k = s.memRead k := by dsimp only [State.loadRegs, State.memRead]

/-! ### `State.tick` -/

@[simp] theorem State.tick_v : (s.tick).v = s.v := rfl
@[simp] theorem State.tick_idx : (s.tick).idx = s.idx := rfl
@[simp] theorem State.tick_pc : (s.tick).pc = s.pc := rfl
@[simp] theorem State.tick_stack : (s.tick).stack = s.stack := rfl
@[simp] theorem State.tick_sp : (s.tick).sp = s.sp := rfl
@[simp] theorem State.tick_dt : (s.tick).dt = tickByte s.dt := rfl
@[simp] theorem State.tick_st : (s.tick).st = tickByte s.st := rfl
@[simp] theorem State.tick_mem : (s.tick).mem = s.mem := rfl
@[simp] theorem State.tick_screen : (s.tick).screen = s.screen := rfl
@[simp] theorem State.tick_key : (s.tick).key = s.key := rfl
@[simp] theorem State.tick_drawFlag : (s.tick).drawFlag = s.drawFlag := rfl
@[simp] theorem State.tick_fault : (s.tick).fault = s.fault := rfl
@[simp] theorem State.tick_alert : (s.tick).alert = (s.st == 1) := rfl
@[simp] theorem State.tick_result : (s.tick).result = s.result := rfl
@[simp] theorem State.tick_inputs : (s.tick).inputs = s.inputs := rfl
@[simp] theorem State.tick_script : (s.tick).script = s.script := rfl
@[simp] theorem State.tick_draws : (s.tick).draws = s.draws := rfl
@[simp] theorem State.tick_cfg : (s.tick).cfg = s.cfg := rfl
@[simp] theorem State.tick_reg (r : RegIx) : (s.tick).reg r = s.reg r := rfl
@[simp] theorem State.tick_memRead (k : Nat) : (s.tick).memRead k = s.memRead k := rfl

/-! ### `State.refreshKeys` -/

@[simp] theorem State.refreshKeys_v : (s.refreshKeys).v = s.v := by dsimp only [State.refreshKeys]
@[simp] theorem State.refreshKeys_idx : (s.refreshKeys).idx = s.idx := by dsimp only [State.refreshKeys]
@[simp] theorem State.refreshKeys_pc : (s.refreshKeys).pc = s.pc := by dsimp only [State.refreshKeys]
@[simp] theorem State.refreshKeys_stack : (s.refreshKeys).stack = s.stack := by dsimp only [State.refreshKeys]
@[simp] theorem State.refreshKeys_sp : (s.refreshKeys).sp = s.sp := by dsimp only [State.refreshKeys]
@[simp] theorem State.refreshKeys_dt : (s.refreshKeys).dt = s.dt := by dsimp only [State.refreshKeys]
@[simp] theorem State.refreshKeys_st : (s.refreshKeys).st = s.st := by dsimp only [State.refreshKeys]
@[simp] theorem State.refreshKeys_mem : (s.refreshKeys).mem = s.mem := by dsimp only [State.refreshKeys]
@[simp] theorem State.refreshKeys_screen : (s.refreshKeys).screen = s.screen := by dsimp only [State.refreshKeys]
@[simp] theorem State.refreshKeys_key : (s.refreshKeys).key = latchOf s.inputs.keys := by dsimp only [State.refreshKeys]
@[simp] theorem State.refreshKeys_drawFlag : (s.refreshKeys).drawFlag = s.drawFlag := by dsimp only [State.refreshKeys]
@[simp] theorem State.refreshKeys_fault : (s.refreshKeys).fault = s.fault := by dsimp only [State.refreshKeys]
@[simp] theorem State.refreshKeys_alert : (s.refreshKeys).alert = s.alert := by dsimp only [State.refreshKeys]
@[simp] theorem State.refreshKeys_result : (s.refreshKeys).result = s.result := by dsimp only [State.refreshKeys]
@[simp] theorem State.refreshKeys_inputs : (s.refreshKeys).inputs = s.inputs := by dsimp only [State.refreshKeys]
@[simp] theorem State.refreshKeys_script : (s.refreshKeys).script = s.script := by dsimp only [State.refreshKeys]
@[simp] theorem State.refreshKeys_draws : (s.refreshKeys).draws = s.draws := by dsimp only [State.refreshKeys]
@[simp] theorem State.refreshKeys_cfg : (s.refreshKeys).cfg = s.cfg := by dsimp only [State.refreshKeys]
@[simp] theorem State.refreshKeys_reg (r : RegIx) : (s.refreshKeys).reg r = s.reg r := by dsimp only [State.refreshKeys, State.reg]
@[simp] theorem State.refreshKeys_memRead (k : Nat) : (s.refreshKeys).memRead k = s.memRead k := by dsimp only [State.refreshKeys, State.memRead]

/-! ### `State.frameAck` -/

@[simp] theorem State.frameAck_v : (s.frameAck).v = s.v := rfl
@[simp] theorem State.frameAck_idx : (s.frameAck).idx = s.idx := rfl
@[simp] theorem State.frameAck_pc : (s.frameAck).pc = s.pc := rfl
@[simp] theorem State.frameAck_stack : (s.frameAck).stack = s.stack := rfl
@[simp] theorem State.frameAck_sp : (s.frameAck).sp = s.sp := rfl
@[simp] theorem State.frameAck_dt : (s.frameAck).dt = s.dt := rfl
@[simp] theorem State.frameAck_st : (s.frameAck).st = s.st := rfl
@[simp] theorem State.frameAck_mem : (s.frameAck).mem = s.mem := rfl
@[simp] theorem State.frameAck_screen : (s.frameAck).screen = s.screen := rfl
@[simp] theorem State.frameAck_key : (s.frameAck).key = s.key := rfl
@[simp] theorem State.frameAck_drawFlag : (s.frameAck).drawFlag = false := rfl
@[simp] theorem State.frameAck_fault : (s.frameAck).fault = s.fault := rfl
@[simp] theorem State.frameAck_alert : (s.frameAck).alert = s.alert := rfl
@[simp] theorem State.frameAck_result : (s.frameAck).result = s.result := rfl
@[simp] theorem State.frameAck_inputs : (s.frameAck).inputs = s.inputs := rfl
@[simp] theorem State.frameAck_script : (s.frameAck).script = s.script := rfl
@[simp] theorem State.frameAck_draws : (s.frameAck).draws = s.draws := rfl
@[simp] theorem State.frameAck_cfg : (s.frameAck).cfg = s.cfg := rfl
@[simp] theorem State.frameAck_reg (r : RegIx) : (s.frameAck).reg r = s.reg r := rfl
@[simp] theorem State.frameAck_memRead (k : Nat) : (s.frameAck).memRead k = s.memRead k := rfl

/-! ### `State.stillFaulted` -/

@[simp] theorem State.stillFaulted_v (f : Fault) : (s.stillFaulted f).v = s.v := rfl
@[simp] theorem State.stillFaulted_idx (f : Fault) : (s.stillFaulted f).idx = s.idx := rfl
@[simp] theorem State.stillFaulted_pc (f : Fault) : (s.stillFaulted f).pc = s.pc := rfl
@[simp] theorem State.stillFaulted_stack (f : Fault) : (s.stillFaulted f).stack = s.stack := rfl
@[simp] theorem State.stillFaulted_sp (f : Fault) : (s.stillFaulted f).sp = s.sp := rfl
@[simp] theorem State.stillFaulted_dt (f : Fault) : (s.stillFaulted f).dt = s.dt := rfl
@[simp] theorem State.stillFaulted_st (f : Fault) : (s.stillFaulted f).st = s.st := rfl
@[simp] theorem State.stillFaulted_mem (f : Fault) : (s.stillFaulted f).mem = s.mem := rfl
@[simp] theorem State.stillFaulted_screen (f : Fault) : (s.stillFaulted f).screen = s.screen := rfl
@[simp] theorem State.stillFaulted_key (f : Fault) : (s.stillFaulted f).key = s.key := rfl
@[simp] theorem State.stillFaulted_drawFlag (f : Fault) : (s.stillFaulted f).drawFlag = s.drawFlag := rfl
@[simp] theorem State.stillFaulted_fault (f : Fault) : (s.stillFaulted f).fault = s.fault := rfl
@[simp] theorem State.stillFaulted_alert (f : Fault) : (s.stillFaulted f).alert = false := rfl
@[simp] theorem State.stillFaulted_result (f : Fault) : (s.stillFaulted f).result = some (.fault f) := rfl
@[simp] theorem State.stillFaulted_inputs (f : Fault) : (s.stillFaulted f).inputs = s.inputs := rfl
@[simp] theorem State.stillFaulted_script (f : Fault) : (s.stillFaulted f).script = s.script := rfl
@[simp] theorem State.stillFaulted_draws (f : Fault) : (s.stillFaulted f).draws = s.draws := rfl
@[simp] theorem State.stillFaulted_cfg (f : Fault) : (s.stillFaulted f).cfg = s.cfg := rfl
@[simp] theorem State.stillFaulted_reg (f : Fault) (r : RegIx) : (s.stillFaulted f).reg r = s.reg r := rfl
@[simp] theorem State.stillFaulted_memRead (f : Fault) (k : Nat) : (s.stillFaulted f).memRead k = s.memRead k := rfl

/-! ### `State.setRegFlag` -/

@[simp] theorem State.setRegFlag_idx (x : RegIx) (a b : Byte) : (s.setRegFlag x a b).idx = s.idx := rfl
@[simp] theorem State.setRegFlag_pc (x : RegIx) (a b : Byte) : (s.setRegFlag x a b).pc = s.pc := rfl
@[simp] theorem State.setRegFlag_stack (x : RegIx) (a b : Byte) : (s.setRegFlag x a b).stack = s.stack := rfl
@[simp] theorem State.setRegFlag_sp (x : RegIx) (a b : Byte) : (s.setRegFlag x a b).sp = s.sp := rfl
@[simp] theorem State.setRegFlag_dt (x : RegIx) (a b : Byte) : (s.setRegFlag x a b).dt = s.dt := rfl
@[simp] theorem State.setRegFlag_st (x : RegIx) (a b : Byte) : (s.setRegFlag x a b).st = s.st := rfl
@[simp] theorem State.setRegFlag_mem (x : RegIx) (a b : Byte) : (s.setRegFlag x a b).mem = s.mem := rfl
@[simp] theorem State.setRegFlag_screen (x : RegIx) (a b : Byte) : (s.setRegFlag x a b).screen = s.screen := rfl
@[simp] theorem State.setRegFlag_key (x : RegIx) (a b : Byte) : (s.setRegFlag x a b).key = s.key := rfl
@[simp] theorem State.setRegFlag_drawFlag (x : RegIx) (a b : Byte) : (s.setRegFlag x a b).drawFlag = s.drawFlag := rfl
@[simp] theorem State.setRegFlag_fault (x : RegIx) (a b : Byte) : (s.setRegFlag x a b).fault = s.fault := rfl
@[simp] theorem State.setRegFlag_alert (x : RegIx) (a b : Byte) : (s.setRegFlag x a b).alert = s.alert := rfl
@[simp] theorem State.setRegFlag_result (x : RegIx) (a b : Byte) : (s.setRegFlag x a b).result = s.result := rfl
@[simp] theorem State.setRegFlag_inputs (x : RegIx) (a b : Byte) : (s.setRegFlag x a b).inputs = s.inputs := rfl
@[simp] theorem State.setRegFlag_script (x : RegIx) (a b : Byte) : (s.setRegFlag x a b).script = s.script := rfl
@[simp] theorem State.setRegFlag_draws (x : RegIx) (a b : Byte) : (s.setRegFlag x a b).draws = s.draws := rfl
@[simp] theorem State.setRegFlag_cfg (x : RegIx) (a b : Byte) : (s.setRegFlag x a b).cfg = s.cfg := rfl
@[simp] theorem State.setRegFlag_memRead (x : RegIx) (a b : Byte) (k : Nat) : (s.setRegFlag x a b).memRead k = s.memRead k := rfl

/-! ### `State.showCanvas` -/

@[simp] theorem State.showCanvas_idx (c : Canvas) : (s.showCanvas c).idx = s.idx := rfl
@[simp] theorem State.showCanvas_pc (c : Canvas) : (s.showCanvas c).pc = s.pc := rfl
@[simp] theorem State.showCanvas_stack (c : Canvas) : (s.showCanvas c).stack = s.stack := rfl
@[simp] theorem State.showCanvas_sp (c : Canvas) : (s.showCanvas c).sp = s.sp := rfl
@[simp] theorem State.showCanvas_dt (c : Canvas) : (s.showCanvas c).dt = s.dt := rfl
@[simp] theorem State.showCanvas_st (c : Canvas) : (s.showCanvas c).st = s.st := rfl
@[simp] theorem State.showCanvas_mem (c : Canvas) : (s.showCanvas c).mem = s.mem := rfl
@[simp] theorem State.showCanvas_screen (c : Canvas) : (s.showCanvas c).screen = c.screen := rfl
@[simp] theorem State.showCanvas_key (c : Canvas) : (s.showCanvas c).key = s.key := rfl
@[simp] theorem State.showCanvas_drawFlag (c : Canvas) : (s.showCanvas c).drawFlag = true := rfl
@[simp] theorem State.showCanvas_fault (c : Canvas) : (s.showCanvas c).fault = s.fault := rfl
@[simp] theorem State.showCanvas_alert (c : Canvas) : (s.showCanvas c).alert = s.alert := rfl
@[simp] theorem State.showCanvas_result (c : Canvas) : (s.showCanvas c).result = s.result := rfl
@[simp] theorem State.showCanvas_inputs (c : Canvas) : (s.showCanvas c).inputs = s.inputs := rfl
@[simp] theorem State.showCanvas_script (c : Canvas) : (s.showCanvas c).script = s.script := rfl
@[simp] theorem State.showCanvas_draws (c : Canvas) : (s.showCanvas c).draws = s.draws := rfl
@[simp] theorem State.showCanvas_cfg (c : Canvas) : (s.showCanvas c).cfg = s.cfg := rfl
@[simp] theorem State.showCanvas_memRead (c : Canvas) (k : Nat) : (s.showCanvas c).memRead k = s.memRead k := rfl

/-! ### `State.nextInputs` -/

@[simp] theorem State.nextInputs_v : (s.nextInputs).v = s.v := rfl
@[simp] theorem State.nextInputs_idx : (s.nextInputs).idx = s.idx := rfl
@[simp] theorem State.nextInputs_pc : (s.nextInputs).pc = s.pc := rfl
@[simp] theorem State.nextInputs_stack : (s.nextInputs).stack = s.stack := rfl
@[simp] theorem State.nextInputs_sp : (s.nextInputs).sp = s.sp := rfl
@[simp] theorem State.nextInputs_dt : (s.nextInputs).dt = s.dt := rfl
@[simp] theorem State.nextInputs_st : (s.nextInputs).st = s.st := rfl
@[simp] theorem State.nextInputs_mem : (s.nextInputs).mem = s.mem := rfl
@[simp] theorem State.nextInputs_screen : (s.nextInputs).screen = s.screen := rfl
@[simp] theorem State.nextInputs_key : (s.nextInputs).key = s.key := rfl
@[simp] theorem State.nextInputs_drawFlag : (s.nextInputs).drawFlag = s.drawFlag := rfl
@[simp] theorem State.nextInputs_fault : (s.nextInputs).fault = s.fault := rfl
@[simp] theorem State.nextInputs_alert : (s.nextInputs).alert = s.alert := rfl
@[simp] theorem State.nextInputs_result : (s.nextInputs).result = s.result := rfl
@[simp] theorem State.nextInputs_inputs : (s.nextInputs).inputs = s.comingInputs := rfl
@[simp] theorem State.nextInputs_script : (s.nextInputs).script = s.script.tail := rfl
@[simp] theorem State.nextInputs_draws : (s.nextInputs).draws = s.drawsAfter := rfl
@[simp] theorem State.nextInputs_cfg : (s.nextInputs).cfg = s.cfg := rfl
@[simp] theorem State.nextInputs_reg (r : RegIx) : (s.nextInputs).reg r = s.reg r := rfl
@[simp] theorem State.nextInputs_memRead (k : Nat) : (s.nextInputs).memRead k = s.memRead k := rfl

/-! ### `State.completed` -/

@[simp] theorem State.completed_v : (s.completed).v = s.v := by dsimp only [State.completed, State.refreshKeys, State.nextInputs, State.tick]
@[simp] theorem State.completed_idx : (s.completed).idx = s.idx := by dsimp only [State.completed, State.refreshKeys, State.nextInputs, State.tick]
@[simp] theorem State.completed_pc : (s.completed).pc = s.pc := by dsimp only [State.completed, State.refreshKeys, State.nextInputs, State.tick]
@[simp] theorem State.completed_stack : (s.completed).stack = s.stack := by dsimp only [State.completed, State.refreshKeys, State.nextInputs, State.tick]
@[simp] theorem State.completed_sp : (s.completed).sp = s.sp := by dsimp only [State.completed, State.refreshKeys, State.nextInputs, State.tick]
@[simp] theorem State.completed_dt : (s.completed).dt = tickByte s.dt := by dsimp only [State.completed, State.refreshKeys, State.nextInputs, State.tick]
@[simp] theorem State.completed_st : (s.completed).st = tickByte s.st := by dsimp only [State.completed, State.refreshKeys, State.nextInputs, State.tick]
@[simp] theorem State.completed_mem : (s.completed).mem = s.mem := by dsimp only [State.completed, State.refreshKeys, State.nextInputs, State.tick]
@[simp] theorem State.completed_screen : (s.completed).screen = s.screen := by dsimp only [State.completed, State.refreshKeys, State.nextInputs, State.tick]
@[simp] theorem State.completed_key : (s.completed).key = latchOf s.inputs.keys := by dsimp only [State.completed, State.refreshKeys, State.nextInputs, State.tick]
@[simp] theorem State.completed_drawFlag : (s.completed).drawFlag = s.drawFlag := by dsimp only [State.completed, State.refreshKeys, State.nextInputs, State.tick]
@[simp] theorem State.completed_fault : (s.completed).fault = s.fault := by dsimp only [State.completed, State.refreshKeys, State.nextInputs, State.tick]
@[simp] theorem State.completed_alert : (s.completed).alert = (s.st == 1) := by dsimp only [State.completed, State.refreshKeys, State.nextInputs, State.tick]
@[simp] theorem State.completed_result : (s.completed).result = some .completed := by dsimp only [State.completed, State.refreshKeys, State.nextInputs, State.tick]
@[simp] theorem State.completed_inputs : (s.completed).inputs = s.comingInputs := by dsimp only [State.completed, State.refreshKeys, State.nextInputs, State.tick, State.comingInputs, State.drawsAfter]
@[simp] theorem State.completed_script : (s.completed).script = s.script.tail := by dsimp only [State.completed, State.refreshKeys, State.nextInputs, State.tick, State.comingInputs, State.drawsAfter]
@[simp] theorem State.completed_draws : (s.completed).draws = s.drawsAfter := by dsimp only [State.completed, State.refreshKeys, State.nextInputs, State.tick, State.comingInputs, State.drawsAfter]
@[simp] theorem State.completed_cfg : (s.completed).cfg = s.cfg := by dsimp only [State.completed, State.refreshKeys, State.nextInputs, State.tick]
@[simp] theorem State.completed_reg (r : RegIx) : (s.completed).reg r = s.reg r := by dsimp only [State.completed, State.refreshKeys, State.nextInputs, State.tick, State.reg]
@[simp] theorem State.completed_memRead (k : Nat) : (s.completed).memRead k = s.memRead k := by dsimp only [State.completed, State.refreshKeys, State.nextInputs, State.tick, State.memRead]

/-! ### `State.faulted` -/

@[simp] theorem State.faulted_v (f : Fault) : (s.faulted f).v = s.v := rfl
@[simp] theorem State.faulted_idx (f : Fault) : (s.faulted f).idx = s.idx := rfl
@[simp] theorem State.faulted_pc (f : Fault) : (s.faulted f).pc = s.pc := rfl
@[simp] theorem State.faulted_stack (f : Fault) : (s.faulted f).stack = s.stack := rfl
@[simp] theorem State.faulted_sp (f : Fault) : (s.faulted f).sp = s.sp := rfl
@[simp] theorem State.faulted_dt (f : Fault) : (s.faulted f).dt = s.dt := rfl
@[simp] theorem State.faulted_st (f : Fault) : (s.faulted f).st = s.st := rfl
@[simp] theorem State.faulted_mem (f : Fault) : (s.faulted f).mem = s.mem := rfl
@[simp] theorem State.faulted_screen (f : Fault) : (s.faulted f).screen = s.screen := rfl
@[simp] theorem State.faulted_key (f : Fault) : (s.faulted f).key = s.key := rfl
@[simp] theorem State.faulted_drawFlag (f : Fault) : (s.faulted f).drawFlag = s.drawFlag := rfl
@[simp] theorem State.faulted_fault (f : Fault) : (s.faulted f).fault = s.fault := rfl
@[simp] theorem State.faulted_alert (f : Fault) : (s.faulted f).alert = false := rfl
@[simp] theorem State.faulted_result (f : Fault) : (s.faulted f).result = some (.fault f) := rfl
@[simp] theorem State.faulted_inputs (f : Fault) : (s.faulted f).inputs = s.comingInputs := rfl
@[simp] theorem State.faulted_script (f : Fault) : (s.faulted f).script = s.script.tail := rfl
@[simp] theorem State.faulted_draws (f : Fault) : (s.faulted f).draws = s.drawsAfter := rfl
@[simp] theorem State.faulted_cfg (f : Fault) : (s.faulted f).cfg = s.cfg := rfl
@[simp] theorem State.faulted_reg (f : Fault) (r : RegIx) : (s.faulted f).reg r = s.reg r := rfl
@[simp] theorem State.faulted_memRead (f : Fault) (k : Nat) : (s.faulted f).memRead k = s.memRead k := rfl

/-! ### `State.quitted` -/

@[simp] theorem State.quitted_v : (s.quitted).v = s.v := rfl
@[simp] theorem State.quitted_idx : (s.quitted).idx = s.idx := rfl
@[simp] theorem State.quitted_pc : (s.quitted).pc = s.pc := rfl
@[simp] theorem State.quitted_stack : (s.quitted).stack = s.stack := rfl
@[simp] theorem State.quitted_sp : (s.quitted).sp = s.sp := rfl
@[simp] theorem State.quitted_dt : (s.quitted).dt = s.dt := rfl
@[simp] theorem State.quitted_st : (s.quitted).st = s.st := rfl
@[simp] theorem State.quitted_mem : (s.quitted).mem = s.mem := rfl
@[simp] theorem State.quitted_screen : (s.quitted).screen = s.screen := rfl
@[simp] theorem State.quitted_key : (s.quitted).key = s.key := rfl
@[simp] theorem State.quitted_drawFlag : (s.quitted).drawFlag = s.drawFlag := rfl
@[simp] theorem State.quitted_fault : (s.quitted).fault = s.fault := rfl
@[simp] theorem State.quitted_alert : (s.quitted).alert = false := rfl
@[simp] theorem State.quitted_result : (s.quitted).result = some .quit := rfl
@[simp] theorem State.quitted_inputs : (s.quitted).inputs = s.comingInputs := rfl
@[simp] theorem State.quitted_script : (s.quitted).script = s.script.tail := rfl
@[simp] theorem State.quitted_draws : (s.quitted).draws = s.drawsAfter := rfl
@[simp] theorem State.quitted_cfg : (s.quitted).cfg = s.cfg := rfl
@[simp] theorem State.quitted_reg (r : RegIx) : (s.quitted).reg r = s.reg r := rfl
@[simp] theorem State.quitted_memRead (k : Nat) : (s.quitted).memRead k = s.memRead k := rfl

/-! ### `State.resetEvent` -/

@[simp] theorem State.resetEvent_v : s.resetEvent.v = (State.resetOf s.cfg).v := rfl
@[simp] theorem State.resetEvent_idx : s.resetEvent.idx = (State.resetOf s.cfg).idx := rfl
@[simp] theorem State.resetEvent_pc : s.resetEvent.pc = (State.resetOf s.cfg).pc := rfl
@[simp] theorem State.resetEvent_stack : s.resetEvent.stack = (State.resetOf s.cfg).stack := rfl
@[simp] theorem State.resetEvent_sp : s.resetEvent.sp = (State.resetOf s.cfg).sp := rfl
@[simp] theorem State.resetEvent_dt : s.resetEvent.dt = (State.resetOf s.cfg).dt := rfl
@[simp] theorem State.resetEvent_st : s.resetEvent.st = (State.resetOf s.cfg).st := rfl
@[simp] theorem State.resetEvent_mem : s.resetEvent.mem = (State.resetOf s.cfg).mem := rfl
@[simp] theorem State.resetEvent_screen : s.resetEvent.screen = (State.resetOf s.cfg).screen := rfl
@[simp] theorem State.resetEvent_key : s.resetEvent.key = (State.resetOf s.cfg).key := rfl
@[simp] theorem State.resetEvent_drawFlag : s.resetEvent.drawFlag = (State.resetOf s.cfg).drawFlag := rfl
@[simp] theorem State.resetEvent_fault : s.resetEvent.fault = (State.resetOf s.cfg).fault := rfl
@[simp] theorem State.resetEvent_alert : s.resetEvent.alert = (State.resetOf s.cfg).alert := rfl
@[simp] theorem State.resetEvent_result : s.resetEvent.result = (State.resetOf s.cfg).result := rfl
@[simp] theorem State.resetEvent_inputs : s.resetEvent.inputs = s.inputs := rfl
@[simp] theorem State.resetEvent_script : s.resetEvent.script = s.script := rfl
@[simp] theorem State.resetEvent_draws : s.resetEvent.draws = s.draws := rfl
@[simp] theorem State.resetEvent_cfg : s.resetEvent.cfg = s.cfg := rfl

/-! ### `State.present` -/

@[simp] theorem State.present_v (now : Inputs) (later : List Inputs) : (s.present now later).v = s.v := rfl
@[simp] theorem State.present_idx (now : Inputs) (later : List Inputs) : (s.present now later).idx = s.idx := rfl
@[simp] theorem State.present_pc (now : Inputs) (later : List Inputs) : (s.present now later).pc = s.pc := rfl
@[simp] theorem State.present_stack (now : Inputs) (later : List Inputs) : (s.present now later).stack = s.stack := rfl
@[simp] theorem State.present_sp (now : Inputs) (later : List Inputs) : (s.present now later).sp = s.sp := rfl
@[simp] theorem State.present_dt (now : Inputs) (later : List Inputs) : (s.present now later).dt = s.dt := rfl
@[simp] theorem State.present_st (now : Inputs) (later : List Inputs) : (s.present now later).st = s.st := rfl
@[simp] theorem State.present_mem (now : Inputs) (later : List Inputs) : (s.present now later).mem = s.mem := rfl
@[simp] theorem State.present_screen (now : Inputs) (later : List Inputs) : (s.present now later).screen = s.screen := rfl
@[simp] theorem State.present_key (now : Inputs) (later : List Inputs) : (s.present now later).key = s.key := rfl
@[simp] theorem State.present_drawFlag (now : Inputs) (later : List Inputs) : (s.present now later).drawFlag = s.drawFlag := rfl
@[simp] theorem State.present_fault (now : Inputs) (later : List Inputs) : (s.present now later).fault = s.fault := rfl
@[simp] theorem State.present_alert (now : Inputs) (later : List Inputs) : (s.present now later).alert = s.alert := rfl
@[simp] theorem State.present_result (now : Inputs) (later : List Inputs) : (s.present now later).result = s.result := rfl
@[simp] theorem State.present_draws (now : Inputs) (later : List Inputs) : (s.present now later).draws = s.draws := rfl
@[simp] theorem State.present_cfg (now : Inputs) (later : List Inputs) : (s.present now later).cfg = s.cfg := rfl
@[simp] theorem State.present_inputs (now : Inputs) (later : List Inputs) : (s.present now later).inputs = now := rfl
@[simp] theorem State.present_script (now : Inputs) (later : List Inputs) : (s.present now later).script = later := rfl

end Sys2Proof.Machine
end

