-- ==== Sys2Proof/Laws/Memory.lean ====
section
/-! SUPPORT. What reading and writing memory do (R47, R49), and that every memory operation keeps the canonical
form. -/

namespace Sys2Proof.Machine

variable {font : Font} {m : Memory} {a k : Nat} {b : Byte}

@[simp] theorem Memory.read_nil : Memory.read font [] a = Memory.background font a := rfl

theorem Memory.read_cons (c : Host.Cell) :
    Memory.read font (c :: m) a = if c.1 = a then c.2 else Memory.read font m a := rfl

/-- An address with no entry reads as unlisted. -/
theorem Memory.read_unlisted (h : ∀ c ∈ m, c.1 ≠ a) :
    Memory.read font m a = Memory.background font a := by
  induction m with
  | nil => rfl
  | cons c m ih =>
    rw [Memory.read_cons, if_neg (h c (by simp))]
    exact ih fun d hd => h d (by simp [hd])

theorem Memory.read_insert (h : ∀ c ∈ m, c.1 ≠ a) :
    Memory.read font (Memory.insert m a b) k = if k = a then b else Memory.read font m k := by
  induction m with
  | nil => simp [Memory.insert, Memory.read_cons, eq_comm]
  | cons c m ih =>
    have hc : c.1 ≠ a := h c (by simp)
    simp only [Memory.insert]
    split
    · simp [Memory.read_cons, eq_comm]
    · rw [Memory.read_cons, Memory.read_cons, ih fun d hd => h d (by simp [hd])]
      split <;> split <;> first | rfl | (exfalso; omega)

theorem Memory.read_erase :
    Memory.read font (m.filter (fun c => c.1 != a)) k =
      if k = a then Memory.background font a else Memory.read font m k := by
  induction m with
  | nil => simp only [List.filter_nil, Memory.read_nil]; split <;> simp [*]
  | cons c m ih =>
    rw [List.filter_cons]
    by_cases hc : c.1 = a
    · simp only [hc, bne_self_eq_false, Bool.false_eq_true, if_false, ih, Memory.read_cons]
      split
      · rfl
      · rw [if_neg (by omega)]
    · simp only [bne_iff_ne, ne_eq, hc, not_false_eq_true, if_true, Memory.read_cons, ih]
      split <;> split <;> first | rfl | (exfalso; omega)

theorem Memory.mem_erase {c : Host.Cell} (h : c ∈ m.filter (fun d => d.1 != a)) : c ∈ m ∧ c.1 ≠ a := by
  simpa using h

/-- The byte written reads back; every other address reads as before. -/
theorem Memory.read_write :
    Memory.read font (Memory.write font m a b) k = if k = a then b else Memory.read font m k := by
  unfold Memory.write
  have hne : ∀ c ∈ m.filter (fun c => c.1 != a), c.1 ≠ a := fun c hc => (Memory.mem_erase hc).2
  dsimp only
  split
  · rename_i hb
    rw [Memory.read_erase, hb]
  · rw [Memory.read_insert hne, Memory.read_erase]
    split <;> rfl

theorem Memory.mem_insert {c : Host.Cell} : c ∈ Memory.insert m a b ↔ c = (a, b) ∨ c ∈ m := by
  induction m with
  | nil => simp [Memory.insert]
  | cons d m ih =>
    simp only [Memory.insert]
    split
    · simp
    · simp only [List.mem_cons, ih]
      constructor
      · rintro (h | h | h) <;> simp [h]
      · rintro (h | h | h) <;> simp [h]

theorem Memory.sorted_insert (hs : m.Pairwise (fun c d => c.1 < d.1)) (h : ∀ c ∈ m, c.1 ≠ a) :
    (Memory.insert m a b).Pairwise (fun c d => c.1 < d.1) := by
  induction m with
  | nil => simp [Memory.insert]
  | cons c m ih =>
    have hc : c.1 ≠ a := h c (by simp)
    rw [List.pairwise_cons] at hs
    simp only [Memory.insert]
    split
    · rename_i hlt
      refine List.pairwise_cons.2 ⟨?_, List.pairwise_cons.2 hs⟩
      intro d hd
      rcases List.mem_cons.1 hd with rfl | hd
      · exact hlt
      · exact Nat.lt_trans hlt (hs.1 d hd)
    · refine List.pairwise_cons.2 ⟨?_, ih hs.2 fun d hd => h d (by simp [hd])⟩
      intro d hd
      rcases Memory.mem_insert.1 hd with rfl | hd
      · change c.1 < a; omega
      · exact hs.1 d hd

theorem Memory.wf_nil (font : Font) : Memory.wf font [] := ⟨List.Pairwise.nil, by simp⟩

/-- A write to an address of the memory keeps the canonical form. -/
theorem Memory.wf_write (h : Memory.wf font m) (ha : a < 4096) :
    Memory.wf font (Memory.write font m a b) := by
  have hs := h.1.filter (fun c => c.1 != a)
  have hne : ∀ c ∈ m.filter (fun c => c.1 != a), c.1 ≠ a := fun c hc => (Memory.mem_erase hc).2
  have hall : ∀ c ∈ m.filter (fun c => c.1 != a), c.1 < 4096 ∧ c.2 ≠ Memory.background font c.1 :=
    fun c hc => h.2 c (Memory.mem_erase hc).1
  unfold Memory.write
  dsimp only
  split
  · exact ⟨hs, hall⟩
  · rename_i hb
    refine ⟨Memory.sorted_insert hs hne, fun c hc => ?_⟩
    rcases Memory.mem_insert.1 hc with rfl | hc
    · exact ⟨ha, hb⟩
    · exact hall c hc

/-! ### The same through State -/

variable {s : State} {bs : List Byte}

@[simp] theorem State.memRead_memWrite :
    (s.memWrite a b).memRead k = if k = a then b else s.memRead k := Memory.read_write

@[simp] theorem State.storeFrom_nil : s.storeFrom a [] = s := rfl

@[simp] theorem State.storeFrom_cons :
    s.storeFrom a (b :: bs) = (s.memWrite a b).storeFrom (a + 1) bs := rfl

/-- Storing bytes changes memory and nothing else. -/
theorem State.storeFrom_frame : s.storeFrom a bs = { s with mem := (s.storeFrom a bs).mem } := by
  induction bs generalizing s a with
  | nil => rfl
  | cons b bs ih => rw [State.storeFrom_cons, ih]; rfl

@[simp] theorem State.storeFrom_v : (s.storeFrom a bs).v = s.v := by rw [State.storeFrom_frame]
@[simp] theorem State.storeFrom_idx : (s.storeFrom a bs).idx = s.idx := by rw [State.storeFrom_frame]
@[simp] theorem State.storeFrom_pc : (s.storeFrom a bs).pc = s.pc := by rw [State.storeFrom_frame]
@[simp] theorem State.storeFrom_stack : (s.storeFrom a bs).stack = s.stack := by rw [State.storeFrom_frame]
@[simp] theorem State.storeFrom_sp : (s.storeFrom a bs).sp = s.sp := by rw [State.storeFrom_frame]
@[simp] theorem State.storeFrom_dt : (s.storeFrom a bs).dt = s.dt := by rw [State.storeFrom_frame]
@[simp] theorem State.storeFrom_st : (s.storeFrom a bs).st = s.st := by rw [State.storeFrom_frame]
@[simp] theorem State.storeFrom_screen : (s.storeFrom a bs).screen = s.screen := by rw [State.storeFrom_frame]
@[simp] theorem State.storeFrom_key : (s.storeFrom a bs).key = s.key := by rw [State.storeFrom_frame]
@[simp] theorem State.storeFrom_drawFlag : (s.storeFrom a bs).drawFlag = s.drawFlag := by rw [State.storeFrom_frame]
@[simp] theorem State.storeFrom_fault : (s.storeFrom a bs).fault = s.fault := by rw [State.storeFrom_frame]
@[simp] theorem State.storeFrom_alert : (s.storeFrom a bs).alert = s.alert := by rw [State.storeFrom_frame]
@[simp] theorem State.storeFrom_result : (s.storeFrom a bs).result = s.result := by rw [State.storeFrom_frame]
@[simp] theorem State.storeFrom_inputs : (s.storeFrom a bs).inputs = s.inputs := by rw [State.storeFrom_frame]
@[simp] theorem State.storeFrom_script : (s.storeFrom a bs).script = s.script := by rw [State.storeFrom_frame]
@[simp] theorem State.storeFrom_draws : (s.storeFrom a bs).draws = s.draws := by rw [State.storeFrom_frame]
@[simp] theorem State.storeFrom_cfg : (s.storeFrom a bs).cfg = s.cfg := by rw [State.storeFrom_frame]
@[simp] theorem State.storeFrom_reg (r : RegIx) : (s.storeFrom a bs).reg r = s.reg r := by simp [State.reg]

/-- The stored bytes read back at rising addresses; every other address reads as before. -/
theorem State.memRead_storeFrom :
    (s.storeFrom a bs).memRead k =
      if h : a ≤ k ∧ k < a + bs.length then bs[k - a] else s.memRead k := by
  induction bs generalizing s a with
  | nil => rw [State.storeFrom_nil, dif_neg (by simp only [List.length_nil]; omega)]
  | cons b bs ih =>
    rw [State.storeFrom_cons, ih, State.memRead_memWrite]
    by_cases h1 : a + 1 ≤ k ∧ k < a + 1 + bs.length
    · rw [dif_pos h1, dif_pos (by simp; omega)]
      have : k - a = (k - (a + 1)) + 1 := by omega
      simp [this]
    · rw [dif_neg h1]
      by_cases h2 : k = a
      · subst h2; simp
      · rw [if_neg h2, dif_neg (by simp; omega)]

/-- Storing bytes at addresses of the memory keeps the canonical form. -/
theorem State.storeFrom_wf (h : Memory.wf s.cfg.font s.mem) (ha : a + bs.length ≤ 4096) :
    Memory.wf (s.storeFrom a bs).cfg.font (s.storeFrom a bs).mem := by
  induction bs generalizing s a with
  | nil => exact h
  | cons b bs ih =>
    simp only [List.length_cons] at ha
    exact ih (s := s.memWrite a b) (Memory.wf_write h (by omega)) (by omega)

theorem State.resetOf_mem_wf (c : Config) :
    Memory.wf (State.resetOf c).cfg.font (State.resetOf c).mem := Memory.wf_nil _

end Sys2Proof.Machine
end

