-- ==== Sys2Proof/Laws/Ops.lean ====
section
/-! SUPPORT. For each shared operation, what it can do: registers, flags, stack, key latch, range test, the loaded
registers, the tick and the end of a step. -/

namespace Sys2Proof.Machine

variable (s : State)

/-! ### Registers -/

theorem State.reg_setReg (x r : RegIx) (b : Byte) :
    (s.setReg x b).reg r = if r = x then b else s.reg r := by
  simp only [State.reg, State.setReg_v, Vector.getElem_set, Fin.ext_iff, eq_comm]

@[simp] theorem State.reg_setReg_same (x : RegIx) (b : Byte) : (s.setReg x b).reg x = b := by
  simp [State.reg_setReg]

/-- The flag is written last (R121). -/
theorem State.reg_setRegFlag (x r : RegIx) (a f : Byte) :
    (s.setRegFlag x a f).reg r = if r = vf then f else if r = x then a else s.reg r := by
  simp only [State.setRegFlag, State.reg_setReg]

theorem State.setRegFlag_v (x : RegIx) (a f : Byte) :
    (s.setRegFlag x a f).v = (s.v.set x.val a).set vf.val f := rfl

theorem State.showCanvas_v (c : Canvas) : (s.showCanvas c).v = s.v.set vf.val (flagByte c.hit) := rfl

theorem State.reg_loadRegs (x r : RegIx) :
    (s.loadRegs x).reg r = if r ≤ x then s.memRead (s.dataAddr r.val) else s.reg r := by
  simp [State.reg, State.loadedRegs]

/-! ### Flags and arithmetic, as numbers -/

theorem flagByte_toNat (p : Bool) : (flagByte p).toNat = if p then 1 else 0 := by cases p <;> rfl

theorem addBytes_toNat (a b : Byte) : (addBytes a b).toNat = (a.toNat + b.toNat) % 256 := by
  simp [addBytes]

theorem subBytes_toNat (a b : Byte) : (subBytes a b).toNat = (a.toNat + 256 - b.toNat) % 256 := by
  simp [subBytes]

theorem shrByte_toNat (a : Byte) : (shrByte a).toNat = a.toNat / 2 := by
  have := a.isLt
  simp only [shrByte, BitVec.toNat_ofNat]; omega

theorem shlByte_toNat (a : Byte) : (shlByte a).toNat = a.toNat * 2 % 256 := by simp [shlByte]

theorem carryFlag_toNat (a b : Byte) :
    (carryFlag a b).toNat = if a.toNat + b.toNat > 255 then 1 else 0 := by
  simp [carryFlag, flagByte_toNat]

theorem noBorrowFlag_toNat (a b : Byte) :
    (noBorrowFlag a b).toNat = if a.toNat ≥ b.toNat then 1 else 0 := by
  simp [noBorrowFlag, flagByte_toNat]

theorem lsbFlag_toNat (a : Byte) : (lsbFlag a).toNat = a.toNat % 2 := by
  simp only [lsbFlag, flagByte_toNat, BitVec.getLsbD, Nat.testBit, Nat.shiftRight_zero]
  have : a.toNat % 2 = 0 ∨ a.toNat % 2 = 1 := by omega
  rcases this with h | h <;> simp [Nat.one_and_eq_mod_two, h]

theorem msbFlag_toNat (a : Byte) : (msbFlag a).toNat = a.toNat / 128 := by
  have := a.isLt
  simp only [msbFlag, flagByte_toNat, BitVec.getLsbD, Nat.testBit, Nat.shiftRight_eq_div_pow]
  have : a.toNat / 128 = 0 ∨ a.toNat / 128 = 1 := by omega
  rcases this with h | h <;> simp [h]

theorem idxOverflowFlag_toNat (i : Word) (a : Byte) :
    (idxOverflowFlag i a).toNat = if i.toNat + a.toNat > 0xFFF then 1 else 0 := by
  simp [idxOverflowFlag, flagByte_toNat]

theorem idxModulus_bounds (m : IdxAddModulus) : 0 < idxModulus m ∧ idxModulus m ≤ 0x1000 := by
  cases m <;> decide

theorem idxSum_toNat (m : IdxAddModulus) (i : Word) (a : Byte) :
    (idxSum m i a).toNat = (i.toNat + a.toNat) % idxModulus m := by
  have := idxModulus_bounds m
  have := Nat.mod_lt (i.toNat + a.toNat) this.1
  simp only [idxSum, BitVec.toNat_ofNat]; omega

theorem zext16_toNat (nnn : Addr) : (zext16 nnn).toNat = nnn.toNat := by
  have := nnn.isLt
  simp only [zext16, BitVec.toNat_setWidth]; omega

theorem jumpTarget_toNat (nnn : Addr) (a : Byte) : (jumpTarget nnn a).toNat = nnn.toNat + a.toNat := by
  have := nnn.isLt
  have := a.isLt
  simp only [jumpTarget, BitVec.toNat_ofNat]; omega

theorem glyphAddr_toNat (a : Byte) : (glyphAddr a).toNat = 5 * a.toNat := by
  have := a.isLt
  simp only [glyphAddr, BitVec.toNat_ofNat]; omega

theorem tickByte_toNat (t : Byte) : (tickByte t).toNat = t.toNat - 1 := by
  have := t.isLt
  simp only [tickByte, BitVec.toNat_ofNat]; omega

/-! ### Stack -/

theorem State.push_full (a : Word) (h : ¬ s.sp.val < 16) : s.push a = none := dif_neg h

theorem State.push_room (a : Word) (h : s.sp.val < 16) :
    s.push a = some { s with stack := s.stack.set s.sp.val a, sp := ⟨s.sp.val + 1, by omega⟩ } := dif_pos h

theorem State.pop_empty (h : ¬ 0 < s.sp.val) : s.pop = none := dif_neg h

theorem State.pop_some (h : 0 < s.sp.val) :
    s.pop = some (s.stack[s.sp.val - 1], { s with sp := ⟨s.sp.val - 1, by omega⟩ }) := dif_pos h

/-! ### Keys -/

theorem latchOf_getElem (keys : BitVec 16) (k : Nat) (h : k < 16) : (latchOf keys)[k] = keys.getLsbD k := by
  simp [latchOf, BitVec.getLsbD_eq_getElem h]

theorem State.keyDown_some (k : Byte) (h : k.toNat < 16) : s.keyDown k = some s.key[k.toNat] := by
  simp [State.keyDown, h]

theorem State.keyDown_none (k : Byte) (h : ¬ k.toNat < 16) : s.keyDown k = none := by
  simp [State.keyDown, h]

theorem State.lowestKey_none : s.lowestKey = none ↔ ∀ k : Fin 16, s.key[k.val] = false := by
  simp [State.lowestKey, List.find?_eq_none]

theorem State.lowestKey_some (k : Fin 16) :
    s.lowestKey = some k ↔ s.key[k.val] = true ∧ ∀ j : Fin 16, j < k → s.key[j.val] = false := by
  unfold State.lowestKey
  rw [List.find?_eq_some_iff_getElem]
  constructor
  · rintro ⟨hk, i, hi, rfl, hj⟩
    refine ⟨hk, fun j hj' => ?_⟩
    simp only [List.getElem_finRange] at *
    have := hj j.val (by simpa [Fin.lt_def] using hj')
    simpa using this
  · rintro ⟨hk, hj⟩
    refine ⟨hk, k.val, by simp, by simp, fun j hj' => ?_⟩
    have := hj ⟨j, by omega⟩ (by simpa [Fin.lt_def] using hj')
    simpa using this

/-! ### The range test -/

theorem State.rangeFault_none (last : Nat) : s.rangeFault last = none ↔ s.idx.toNat + last ≤ 0xFFF := by
  unfold State.rangeFault State.dataAddr
  split <;> simp <;> omega

theorem State.rangeFault_some (last : Nat) (f : Fault) :
    s.rangeFault last = some f ↔
      s.idx.toNat + last > 0xFFF ∧ f = .memOutOfRange (max s.idx.toNat 0x1000) := by
  unfold State.rangeFault State.dataAddr
  split <;> simp [*, eq_comm]

/-! ### The bytes BCD and DumpRegisters store -/

@[simp] theorem bcdDigits_length (a : Byte) : (bcdDigits a).length = 3 := rfl

@[simp] theorem State.regsUpTo_length (x : RegIx) : (s.regsUpTo x).length = x.val + 1 := by
  simp [State.regsUpTo]

theorem State.regsUpTo_getElem (x : RegIx) (i : Nat) (h : i < (s.regsUpTo x).length) :
    (s.regsUpTo x)[i] = s.reg ⟨i, by have := x.isLt; simp at h; omega⟩ := by
  have h' : i < 16 := by have := x.isLt; simp at h; omega
  simp [State.regsUpTo, State.reg, h']

@[simp] theorem State.bytesAtIdx_length (n : Nat) : (s.bytesAtIdx n).length = n := by simp [State.bytesAtIdx]

theorem State.bytesAtIdx_getElem (n i : Nat) (h : i < (s.bytesAtIdx n).length) :
    (s.bytesAtIdx n)[i] = s.memRead (s.dataAddr i) := by simp [State.bytesAtIdx]

/-! ### The ends of a step -/

theorem State.endStep_none (h : s.fault = none) : s.endStep = s.completed := by simp [State.endStep, h]

theorem State.endStep_some {f : Fault} (h : s.fault = some f) : s.endStep = s.faulted f := by
  simp [State.endStep, h]

/-! ### Fetch -/

theorem State.fetch_in (h : s.pc.toNat ≤ 0xFFE) :
    s.fetch = some (wordOfBytes (s.memRead s.pc.toNat) (s.memRead (s.pc.toNat + 1))) := if_pos h

theorem State.fetch_out (h : ¬ s.pc.toNat ≤ 0xFFE) : s.fetch = none := if_neg h

end Sys2Proof.Machine
end

