-- ==== Sys2Proof/Laws/Step.lean ====
section
/-! SUPPORT. What exec and step can do, said once: exec always answers a next state and leaves the ports and the
parameters alone; a step is one of five cases. -/

namespace Sys2Proof.Machine

variable {s t : State} {i : Instr}

/-- What no instruction touches. -/
structure State.SameOutside (s t : State) : Prop where
  key : t.key = s.key
  alert : t.alert = s.alert
  result : t.result = s.result
  inputs : t.inputs = s.inputs
  script : t.script = s.script
  draws : t.draws = s.draws
  cfg : t.cfg = s.cfg

theorem exec_total (i : Instr) (s : State) : ∃ t, exec i s = .next t ∧ s.SameOutside t := by
  cases i
  case machineCall =>
    simp only [exec, execMachineCall]; split <;> exact ⟨_, rfl, by constructor <;> rfl⟩
  case call =>
    by_cases h : s.sp.val < 16
    · simp only [exec, execCall, s.push_room _ h]; exact ⟨_, rfl, by constructor <;> rfl⟩
    · simp only [exec, execCall, s.push_full _ h]; exact ⟨_, rfl, by constructor <;> rfl⟩
  case ret =>
    by_cases h : 0 < s.sp.val
    · simp only [exec, execReturn, s.pop_some h]; exact ⟨_, rfl, by constructor <;> rfl⟩
    · simp only [exec, execReturn, s.pop_empty h]; exact ⟨_, rfl, by constructor <;> rfl⟩
  case skipIfPressed =>
    simp only [exec, execSkipIfPressed]; split <;> exact ⟨_, rfl, by constructor <;> rfl⟩
  case skipIfNotPressed =>
    simp only [exec, execSkipIfNotPressed]; split <;> exact ⟨_, rfl, by constructor <;> rfl⟩
  case waitKey =>
    simp only [exec, execWaitKey]; split <;> exact ⟨_, rfl, by constructor <;> rfl⟩
  case draw =>
    simp only [exec, execDraw]; split <;> exact ⟨_, rfl, by constructor <;> rfl⟩
  case bcd =>
    simp only [exec, execBcd]; split <;> exact ⟨_, rfl, by constructor <;> simp⟩
  case dumpRegisters =>
    simp only [exec, execDumpRegisters]; split <;> exact ⟨_, rfl, by constructor <;> simp⟩
  case fillRegisters =>
    simp only [exec, execFillRegisters]; split <;> exact ⟨_, rfl, by constructor <;> simp⟩
  all_goals exact ⟨_, rfl, by constructor <;> rfl⟩

/-! ### The five cases of a step, forwards -/

theorem step_latched {f : Fault} (h : s.fault = some f) : step s = .next (s.stillFaulted f) := by
  simp only [step, h]

theorem step_quit (h : s.fault = none) (hq : s.inputs.quit = true) : step s = .next s.quitted := by
  simp only [step, h, hq, if_true]

theorem step_fetch_out (h : s.running) (hf : s.fetch = none) :
    step s = .next ((s.raise (.pcOutOfRange s.pc)).faulted (.pcOutOfRange s.pc)) := by
  simp only [step, h.1, h.2, hf, Bool.false_eq_true, if_false]
  rw [State.endStep_some _ (f := .pcOutOfRange s.pc) rfl]

theorem decode_unrecognized {w raw : Word} (h : decode w = .unrecognized raw) : raw = w := by
  revert h
  unfold decode decode8 decodeE decodeF
  repeat' split
  all_goals first | (intro h; injection h with h; exact h.symm) | (intro h; injection h)

theorem step_invalid {w raw : Word} (h : s.running) (hf : s.fetch = some w)
    (hd : decode w = .unrecognized raw) :
    step s = .next ((s.raise (.invalidOpcode w)).faulted (.invalidOpcode w)) := by
  obtain rfl := decode_unrecognized hd
  simp only [step, h.1, h.2, hf, hd, Bool.false_eq_true, if_false]
  rw [State.endStep_some _ (f := .invalidOpcode raw) rfl]

theorem step_instr {w : Word} (h : s.running) (hf : s.fetch = some w) (hd : decode w = .instr i)
    (he : exec i s = .next t) : step s = .next t.endStep := by
  simp only [step, h.1, h.2, hf, hd, he, Bool.false_eq_true, if_false]

/-- The five cases of a step, backwards. -/
theorem step_cases (h : step s = .next t) :
    (∃ f, s.fault = some f ∧ t = s.stillFaulted f) ∨
    (s.fault = none ∧ s.inputs.quit = true ∧ t = s.quitted) ∨
    (s.running ∧ s.fetch = none ∧
      t = (s.raise (.pcOutOfRange s.pc)).faulted (.pcOutOfRange s.pc)) ∨
    (s.running ∧ ∃ w, s.fetch = some w ∧ decode w = .unrecognized w ∧
      t = (s.raise (.invalidOpcode w)).faulted (.invalidOpcode w)) ∨
    (s.running ∧ ∃ w i u, s.fetch = some w ∧ decode w = .instr i ∧ exec i s = .next u ∧
      s.SameOutside u ∧ t = u.endStep) := by
  cases hfault : s.fault with
  | some f =>
    rw [step_latched hfault] at h
    injection h with h
    exact .inl ⟨f, rfl, h.symm⟩
  | none =>
    cases hq : s.inputs.quit with
    | true =>
      rw [step_quit hfault hq] at h
      injection h with h
      exact .inr (.inl ⟨rfl, rfl, h.symm⟩)
    | false =>
      have hr : s.running := ⟨hfault, hq⟩
      refine .inr (.inr ?_)
      cases hf : s.fetch with
      | none =>
        rw [step_fetch_out hr hf] at h
        injection h with h
        exact .inl ⟨hr, rfl, h.symm⟩
      | some w =>
        cases hd : decode w with
        | unrecognized raw =>
          rw [step_invalid hr hf hd] at h
          injection h with h
          have := decode_unrecognized hd
          exact .inr (.inl ⟨hr, w, rfl, this ▸ hd, h.symm⟩)
        | instr i =>
          obtain ⟨u, hu, ho⟩ := exec_total i s
          rw [step_instr hr hf hd hu] at h
          injection h with h
          exact .inr (.inr ⟨hr, w, i, u, rfl, hd, hu, ho, h.symm⟩)

theorem step_total (s : State) : ∃ t, step s = .next t := by
  cases hfault : s.fault with
  | some f => exact ⟨_, step_latched hfault⟩
  | none =>
    cases hq : s.inputs.quit with
    | true => exact ⟨_, step_quit hfault hq⟩
    | false =>
      cases hf : s.fetch with
      | none => exact ⟨_, step_fetch_out ⟨hfault, hq⟩ hf⟩
      | some w =>
        cases hd : decode w with
        | unrecognized raw => exact ⟨_, step_invalid ⟨hfault, hq⟩ hf hd⟩
        | instr i =>
          obtain ⟨u, hu, -⟩ := exec_total i s
          exact ⟨_, step_instr ⟨hfault, hq⟩ hf hd hu⟩

end Sys2Proof.Machine
end

