-- ==== Sys2Proof/Laws/Agree.lean ====
section
/-! SUPPORT. Two states that agree on what instructions read: every instruction does the same to both. What R15,
R16, R21, R29 and R89 say nothing reads (a timer, draw_flag, a port) then shows in no other state. -/

namespace Sys2Proof.Machine

/-- Agreement on all that instructions read, but for dt (StoreDelay) and `rnd_in` (Rand). -/
structure State.Agree (s s' : State) : Prop where
  v : s'.v = s.v
  idx : s'.idx = s.idx
  pc : s'.pc = s.pc
  stack : s'.stack = s.stack
  sp : s'.sp = s.sp
  mem : s'.mem = s.mem
  screen : s'.screen = s.screen
  key : s'.key = s.key
  cfg : s'.cfg = s.cfg

variable {s s' t : State} {i : Instr}

/-- Agreement says that the two states differ in the other fields only. -/
theorem State.Agree.eq (h : s.Agree s') : s' = { s with
    dt := s'.dt, st := s'.st, drawFlag := s'.drawFlag, fault := s'.fault, alert := s'.alert
    result := s'.result, inputs := s'.inputs, script := s'.script, draws := s'.draws } := by
  obtain ⟨h1, h2, h3, h4, h5, h6, h7, h8, h9⟩ := h
  cases s'; simp only at *; subst_vars; rfl

namespace State.Agree

theorem reg (h : s.Agree s') (x : RegIx) : s'.reg x = s.reg x := by simp only [State.reg, h.v]

theorem memRead (h : s.Agree s') (a : Nat) : s'.memRead a = s.memRead a := by
  simp only [State.memRead, h.mem, h.cfg]

theorem dataAddr (h : s.Agree s') (i : Nat) : s'.dataAddr i = s.dataAddr i := by
  simp only [State.dataAddr, h.idx]

theorem rangeFault (h : s.Agree s') (i : Nat) : s'.rangeFault i = s.rangeFault i := by
  simp only [State.rangeFault, h.dataAddr, h.idx]

theorem keyDown (h : s.Agree s') (k : Byte) : s'.keyDown k = s.keyDown k := by simp only [State.keyDown, h.key]

theorem lowestKey (h : s.Agree s') : s'.lowestKey = s.lowestKey := by simp only [State.lowestKey, h.key]

theorem bytesAtIdx (h : s.Agree s') (n : Nat) : s'.bytesAtIdx n = s.bytesAtIdx n := by
  simp only [State.bytesAtIdx, h.memRead, h.dataAddr]

theorem regsUpTo (h : s.Agree s') (x : RegIx) : s'.regsUpTo x = s.regsUpTo x := by
  simp only [State.regsUpTo, h.v]

theorem loadedRegs (h : s.Agree s') (x : RegIx) : s'.loadedRegs x = s.loadedRegs x := by
  simp only [State.loadedRegs, h.memRead, h.dataAddr, h.reg]

theorem fetch (h : s.Agree s') : s'.fetch = s.fetch := by simp only [State.fetch, h.pc, h.memRead]

theorem storeFrom_mem (h : s.Agree s') (a : Nat) (bs : List Byte) :
    (s'.storeFrom a bs).mem = (s.storeFrom a bs).mem := by
  have hm := h.mem
  have hc := h.cfg
  clear h
  induction bs generalizing s s' a with
  | nil => exact hm
  | cons b bs ih =>
    exact ih (s := s.memWrite a b) (s' := s'.memWrite a b) (a + 1) (by simp only [State.memWrite, hm, hc]) hc

end State.Agree

/-- What an instruction does to a field that it may set but that no other field of its result depends on. -/
def SetAlike {α : Type} (before before' after after' : α) : Prop :=
  (after = before ∧ after' = before') ∨ after' = after

@[simp] theorem SetAlike.kept {α : Type} (a a' : α) : SetAlike a a' a a' := .inl ⟨rfl, rfl⟩

@[simp] theorem SetAlike.set {α : Type} (a a' b : α) : SetAlike a a' b b := .inr rfl

theorem SetAlike.same {α : Type} {a t t' : α} (h : SetAlike a a t t') : t' = t := by
  rcases h with ⟨h1, h2⟩ | h
  · rw [h1, h2]
  · exact h

/-- Two states that agree: the results agree, and each of dt, st, draw_flag and the latch is either left alone in
both or set alike in both. -/
theorem exec_agree (h : s.Agree s') (hdt : ∀ x, i = .storeDelay x → s'.dt = s.dt)
    (hrnd : ∀ x kk, i = .rand x kk → s'.inputs.rnd = s.inputs.rnd) (he : exec i s = .next t) :
    ∃ t', exec i s' = .next t' ∧ t.Agree t' ∧ SetAlike s.dt s'.dt t.dt t'.dt ∧ SetAlike s.st s'.st t.st t'.st ∧
      ((t.drawFlag = s.drawFlag ∧ t'.drawFlag = s'.drawFlag) ∨ (t.drawFlag = true ∧ t'.drawFlag = true)) ∧
      SetAlike s.fault s'.fault t.fault t'.fault := by
  have hsp : s'.sp.val = s.sp.val := by rw [h.sp]
  revert he
  cases i
  case call =>
    by_cases hs : s.sp.val < 16
    · simp only [exec, execCall, s.push_room _ hs, s'.push_room _ (by omega)]
      rintro ⟨⟩
      refine ⟨_, rfl, ?_, by simp, by simp, by simp, by simp⟩
      constructor <;> simp [h.v, h.idx, h.pc, h.stack, h.sp, h.mem, h.screen, h.key, h.cfg]
    · simp only [exec, execCall, s.push_full _ hs, s'.push_full _ (by omega)]
      rintro ⟨⟩
      refine ⟨_, rfl, ?_, by simp, by simp, by simp, by simp⟩
      constructor <;> simp [h.v, h.idx, h.pc, h.stack, h.sp, h.mem, h.screen, h.key, h.cfg]
  case ret =>
    by_cases hs : 0 < s.sp.val
    · simp only [exec, execReturn, s.pop_some hs, s'.pop_some (by omega)]
      rintro ⟨⟩
      refine ⟨_, rfl, ?_, by simp, by simp, by simp, by simp⟩
      constructor <;> simp [h.v, h.idx, h.pc, h.stack, h.sp, h.mem, h.screen, h.key, h.cfg]
    · simp only [exec, execReturn, s.pop_empty hs, s'.pop_empty (by omega)]
      rintro ⟨⟩
      refine ⟨_, rfl, ?_, by simp, by simp, by simp, by simp⟩
      constructor <;> simp [h.v, h.idx, h.pc, h.stack, h.sp, h.mem, h.screen, h.key, h.cfg]
  case storeDelay x =>
    rintro ⟨⟩
    refine ⟨_, rfl, ?_, by simp, by simp, by simp, by simp⟩
    constructor <;> simp [hdt x rfl, h.v, h.idx, h.pc, h.stack, h.sp, h.mem, h.screen, h.key, h.cfg]
  case rand x kk =>
    rintro ⟨⟩
    refine ⟨_, rfl, ?_, by simp, by simp, by simp, by simp⟩
    constructor <;> simp [hrnd x kk rfl, h.v, h.idx, h.pc, h.stack, h.sp, h.mem, h.screen, h.key, h.cfg]
  all_goals
    simp only [exec, execMachineCall, execSkipIfPressed, execSkipIfNotPressed, execWaitKey, execBcd,
      execDumpRegisters, execFillRegisters, execDraw, h.cfg, h.keyDown, h.reg, h.lowestKey, h.rangeFault]
    try split
  all_goals
    rintro ⟨⟩
    refine ⟨_, rfl, ?_, by simp [h.reg], by simp [h.reg], by simp, by simp⟩
    constructor <;>
      simp [h.reg, h.dataAddr, h.bytesAtIdx, h.regsUpTo, h.loadedRegs, h.storeFrom_mem, State.setRegFlag_v,
        State.showCanvas_v, h.v, h.idx, h.pc, h.stack,
        h.sp, h.mem, h.screen, h.key, h.cfg]

end Sys2Proof.Machine
end

