-- ==== Sys2Proof/Laws/Decode.lean ====
section
/-! SUPPORT. The fields of a word as arithmetic, and the fields of an encoded word. -/

namespace Sys2Proof

theorem opOf_toNat (w : Word) : (opOf w).toNat = w.toNat / 0x1000 := by
  simp only [opOf, BitVec.extractLsb'_toNat, Nat.shiftRight_eq_div_pow]; omega

theorem xOf_val (w : Word) : (xOf w).val = w.toNat / 0x100 % 0x10 := by
  simp [xOf, Nat.shiftRight_eq_div_pow]

theorem yOf_val (w : Word) : (yOf w).val = w.toNat / 0x10 % 0x10 := by
  simp [yOf, Nat.shiftRight_eq_div_pow]

theorem nOf_val (w : Word) : (nOf w).val = w.toNat % 0x10 := by
  simp [nOf]

theorem kkOf_toNat (w : Word) : (kkOf w).toNat = w.toNat % 0x100 := by
  simp [kkOf, BitVec.extractLsb'_toNat]

theorem nnnOf_toNat (w : Word) : (nnnOf w).toNat = w.toNat % 0x1000 := by
  simp [nnnOf, BitVec.extractLsb'_toNat]

/-! ### Format A -/

theorem encA_toNat {op : Nat} (h : op < 16) (nnn : Addr) :
    (encA op nnn).toNat = op * 0x1000 + nnn.toNat := by
  have := nnn.isLt
  simp only [encA, BitVec.toNat_ofNat]; omega

theorem opOf_encA {op : Nat} (h : op < 16) (nnn : Addr) : (opOf (encA op nnn)).toNat = op := by
  have := nnn.isLt
  rw [opOf_toNat, encA_toNat h]; omega

theorem nnnOf_encA {op : Nat} (h : op < 16) (nnn : Addr) : nnnOf (encA op nnn) = nnn := by
  have := nnn.isLt
  apply BitVec.eq_of_toNat_eq
  rw [nnnOf_toNat, encA_toNat h]; omega

/-! ### Formats I and X -/

theorem encI_toNat {op : Nat} (h : op < 16) (x : RegIx) (kk : Byte) :
    (encI op x kk).toNat = op * 0x1000 + x.val * 0x100 + kk.toNat := by
  have := kk.isLt
  simp only [encI, BitVec.toNat_ofNat]; omega

theorem opOf_encI {op : Nat} (h : op < 16) (x : RegIx) (kk : Byte) : (opOf (encI op x kk)).toNat = op := by
  have := kk.isLt
  rw [opOf_toNat, encI_toNat h]; omega

theorem xOf_encI {op : Nat} (h : op < 16) (x : RegIx) (kk : Byte) : xOf (encI op x kk) = x := by
  have := kk.isLt
  apply Fin.ext
  rw [xOf_val, encI_toNat h]; omega

theorem kkOf_encI {op : Nat} (h : op < 16) (x : RegIx) (kk : Byte) : kkOf (encI op x kk) = kk := by
  have := kk.isLt
  apply BitVec.eq_of_toNat_eq
  rw [kkOf_toNat, encI_toNat h]; omega

/-! ### Formats R, S and D -/

theorem encR_toNat {op : Nat} (h : op < 16) (x y n : Fin 16) :
    (encR op x y n).toNat = op * 0x1000 + x.val * 0x100 + y.val * 0x10 + n.val := by
  simp only [encR, BitVec.toNat_ofNat]; omega

theorem opOf_encR {op : Nat} (h : op < 16) (x y n : Fin 16) : (opOf (encR op x y n)).toNat = op := by
  rw [opOf_toNat, encR_toNat h]; omega

theorem xOf_encR {op : Nat} (h : op < 16) (x y n : Fin 16) : xOf (encR op x y n) = x := by
  apply Fin.ext
  rw [xOf_val, encR_toNat h]; omega

theorem yOf_encR {op : Nat} (h : op < 16) (x y n : Fin 16) : yOf (encR op x y n) = y := by
  apply Fin.ext
  rw [yOf_val, encR_toNat h]; omega

theorem nOf_encR {op : Nat} (h : op < 16) (x y n : Fin 16) : nOf (encR op x y n) = n := by
  apply Fin.ext
  rw [nOf_val, encR_toNat h]; omega

/-! ### Masks, as arithmetic -/

theorem and_or_eq_add (w m n : Word) (h : m &&& n = 0) : w &&& (m ||| n) = (w &&& m) + (w &&& n) := by
  have hz : (w &&& m) &&& (w &&& n) = 0#16 := by
    rw [BitVec.and_assoc, BitVec.and_comm m, BitVec.and_assoc, BitVec.and_comm n, h]; simp
  rw [BitVec.add_eq_or_of_and_eq_zero _ _ hz, BitVec.and_or_distrib_left]

theorem and_low (w : Word) (k : Nat) (h : k ≤ 16) : (w &&& BitVec.ofNat 16 (2 ^ k - 1)).toNat = w.toNat % 2 ^ k := by
  have : 2 ^ k ≤ 2 ^ 16 := Nat.pow_le_pow_right (by decide) h
  have h2 : (2 ^ k - 1) % 2 ^ 16 = 2 ^ k - 1 := Nat.mod_eq_of_lt (by omega)
  rw [BitVec.toNat_and, BitVec.toNat_ofNat, h2, Nat.and_two_pow_sub_one_eq_mod]

theorem and_F000 (w : Word) : (w &&& 0xF000).toNat = w.toNat / 0x1000 * 0x1000 := by
  have h1 := and_or_eq_add w 0xF000 0x0FFF (by decide)
  have h2 : w &&& (0xF000 ||| 0x0FFF : Word) = w := BitVec.and_allOnes
  rw [h2] at h1
  have h4 := congrArg BitVec.toNat h1
  rw [BitVec.toNat_add] at h4
  have h5 : (w &&& 0x0FFF).toNat = w.toNat % 0x1000 := and_low w 12 (by decide)
  have h6 : (w &&& 0xF000).toNat ≤ 0xF000 := by rw [BitVec.toNat_and]; exact Nat.and_le_right
  omega

theorem and_FF00 (w : Word) : (w &&& 0xFF00).toNat = w.toNat / 0x100 * 0x100 := by
  have h1 := and_or_eq_add w 0xFF00 0x00FF (by decide)
  have h2 : w &&& (0xFF00 ||| 0x00FF : Word) = w := BitVec.and_allOnes
  have h5 : (w &&& 0x00FF).toNat = w.toNat % 0x100 := and_low w 8 (by decide)
  rw [h2] at h1
  have h4 := congrArg BitVec.toNat h1
  rw [BitVec.toNat_add] at h4
  have h6 : (w &&& 0xFF00).toNat ≤ 0xFF00 := by rw [BitVec.toNat_and]; exact Nat.and_le_right
  omega

theorem and_F00F (w : Word) : (w &&& 0xF00F).toNat = w.toNat / 0x1000 * 0x1000 + w.toNat % 0x10 := by
  have h1 : w &&& 0xF00F = (w &&& 0xF000) + (w &&& 0x000F) := and_or_eq_add w 0xF000 0x000F (by decide)
  have h2 : (w &&& 0x000F).toNat = w.toNat % 0x10 := and_low w 4 (by decide)
  have := w.isLt
  rw [h1, BitVec.toNat_add, and_F000, h2]; omega

theorem and_F0FF (w : Word) : (w &&& 0xF0FF).toNat = w.toNat / 0x1000 * 0x1000 + w.toNat % 0x100 := by
  have h1 : w &&& 0xF0FF = (w &&& 0xF000) + (w &&& 0x00FF) := and_or_eq_add w 0xF000 0x00FF (by decide)
  have h2 : (w &&& 0x00FF).toNat = w.toNat % 0x100 := and_low w 8 (by decide)
  have := w.isLt
  rw [h1, BitVec.toNat_add, and_F000, h2]; omega

theorem and_FF0F (w : Word) : (w &&& 0xFF0F).toNat = w.toNat / 0x100 * 0x100 + w.toNat % 0x10 := by
  have h1 : w &&& 0xFF0F = (w &&& 0xFF00) + (w &&& 0x000F) := and_or_eq_add w 0xFF00 0x000F (by decide)
  have h2 : (w &&& 0x000F).toNat = w.toNat % 0x10 := and_low w 4 (by decide)
  have := w.isLt
  rw [h1, BitVec.toNat_add, and_FF00, h2]; omega

/-- The word two bytes make, as a number. -/
theorem wordOfBytes_toNat (first second : Byte) :
    (wordOfBytes first second).toNat = first.toNat * 256 + second.toNat := by
  have := first.isLt
  have := second.isLt
  simp only [wordOfBytes, BitVec.toNat_ofNat]; omega

/-- A word is put together again from its two bytes. -/
theorem wordOfBytes_halves (w : Word) :
    wordOfBytes (BitVec.ofNat 8 (w.toNat / 256)) (BitVec.ofNat 8 w.toNat) = w := by
  have := w.isLt
  apply BitVec.eq_of_toNat_eq
  rw [wordOfBytes_toNat]; simp only [BitVec.toNat_ofNat]; omega

end Sys2Proof
end

