-- ==== Sys2Proof/Laws/Display.lean ====
section
/-! SUPPORT. What drawing does to one pixel, function by function (R151, R152). -/

namespace Sys2Proof.Machine

variable {vx vy : Byte} {row : Nat} {b : Byte} {c : Canvas}

/-- Inverting a pixel changes that pixel and no other. -/
theorem pixel_invertPixel (screen : Screen) (px qx : Fin 64) (py qy : Fin 32) :
    pixel (invertPixel screen px py) qx qy = (pixel screen qx qy ^^ decide (px = qx ∧ py = qy)) := by
  simp only [pixel, invertPixel, Vector.getElem_set]
  by_cases hy : py = qy
  · subst hy
    rw [if_pos rfl, BitVec.getLsbD_xor, BitVec.getLsbD_twoPow]
    simp [Fin.ext_iff]
  · rw [if_neg (by simpa [Fin.ext_iff] using hy)]
    simp [hy]

/-- Screens with the same pixels are equal. -/
theorem screen_ext {s t : Screen} (h : ∀ px py, pixel s px py = pixel t px py) : s = t := by
  apply Vector.ext
  intro i hi
  apply BitVec.eq_of_getLsbD_eq
  intro j hj
  exact h ⟨j, hj⟩ ⟨i, hi⟩

/-- Two column offsets of one sprite row never fall on one screen column. -/
theorem columnAt_inj {j k : Nat} (hj : j < 8) (hk : k < 8) (h : columnAt vx j = columnAt vx k) : j = k := by
  simp only [columnAt, Fin.mk.injEq] at h; omega

/-- Two row offsets of one sprite never fall on one screen row. -/
theorem rowAt_inj {r q : Nat} (hr : r < q + 32) (hq : q < r + 32) (h : rowAt vy r = rowAt vy q) : r = q := by
  simp only [rowAt, Fin.mk.injEq] at h; omega

theorem plot_pixel (px qx : Fin 64) (py qy : Fin 32) (bit : Bool) (c : Canvas) :
    pixel (plot px py bit c).screen qx qy = (pixel c.screen qx qy ^^ (bit && decide (px = qx ∧ py = qy))) := by
  cases bit
  · simp [plot]
  · simp only [plot, if_true, pixel_invertPixel, Bool.true_and]

theorem plot_hit (px : Fin 64) (py : Fin 32) (bit : Bool) (c : Canvas) :
    (plot px py bit c).hit = (c.hit || (bit && pixel c.screen px py)) := by
  cases bit <;> simp [plot]

/-- One of the columns of a sprite row has a 1 bit on the screen column qx. -/
abbrev ColsCover (vx b : Byte) (cols : List Nat) (qx : Fin 64) : Prop :=
  ∃ k ∈ cols, b.getLsbD (7 - k) = true ∧ columnAt vx k = qx

/-- Columns that fall on a pixel once: the pixel changes if the bit that falls on it is 1. -/
theorem drawCols_pixel (cols : List Nat) (hn : cols.Nodup) (hc : ∀ k ∈ cols, k < 8) (qx : Fin 64) (qy : Fin 32) :
    pixel (drawCols vx vy row b cols c).screen qx qy =
      (pixel c.screen qx qy ^^ decide (rowAt vy row = qy ∧ ColsCover vx b cols qx)) := by
  induction cols generalizing c with
  | nil => rw [decide_eq_false (by rintro ⟨-, k, hk, -⟩; simp at hk), Bool.xor_false]; rfl
  | cons k cols ih =>
    rw [List.nodup_cons] at hn
    rw [drawCols, ih hn.2 fun j hj => hc j (by simp [hj]), plot_pixel, Bool.xor_assoc]
    congr 1
    by_cases hy : rowAt vy row = qy
    · simp only [hy, true_and, and_true]
      by_cases hk : b.getLsbD (7 - k) = true ∧ columnAt vx k = qx
      · have hrest : ¬ ColsCover vx b cols qx := by
          rintro ⟨j, hj, -, hji⟩
          have := columnAt_inj (hc k (by simp)) (hc j (by simp [hj])) (hk.2.trans hji.symm)
          exact hn.1 (this ▸ hj)
        have hall : ColsCover vx b (k :: cols) qx := ⟨k, by simp, hk⟩
        rw [decide_eq_false hrest, decide_eq_true hall, hk.1, decide_eq_true hk.2]; rfl
      · have : (b.getLsbD (7 - k) && decide (columnAt vx k = qx)) = false := by simpa using hk
        rw [this, Bool.false_xor]
        congr 1
        rw [eq_iff_iff]
        refine ⟨fun ⟨j, hj, h⟩ => ⟨j, by simp [hj], h⟩, ?_⟩
        rintro ⟨j, hj, h⟩
        rcases List.mem_cons.1 hj with rfl | hj
        · exact absurd h hk
        · exact ⟨j, hj, h⟩
    · simp [hy]

/-- A collision so far, or one with a pixel that was 1 before the row. -/
theorem drawCols_hit (cols : List Nat) (hn : cols.Nodup) (hc : ∀ k ∈ cols, k < 8) :
    (drawCols vx vy row b cols c).hit = true ↔
      c.hit = true ∨ ∃ qx, ColsCover vx b cols qx ∧ pixel c.screen qx (rowAt vy row) = true := by
  induction cols generalizing c with
  | nil => simp [drawCols]
  | cons k cols ih =>
    rw [List.nodup_cons] at hn
    rw [drawCols, ih hn.2 fun j hj => hc j (by simp [hj]), plot_hit]
    have hsame : ∀ qx, ColsCover vx b cols qx →
        pixel (plot (columnAt vx k) (rowAt vy row) (b.getLsbD (7 - k)) c).screen qx (rowAt vy row) =
          pixel c.screen qx (rowAt vy row) := by
      rintro qx ⟨j, hj, -, rfl⟩
      have : columnAt vx k ≠ columnAt vx j := by
        intro h
        have := columnAt_inj (hc k (by simp)) (hc j (by simp [hj])) h
        exact hn.1 (this ▸ hj)
      simp [plot_pixel, this]
    simp only [Bool.or_eq_true, Bool.and_eq_true]
    constructor
    · rintro ((h | h) | ⟨qx, h, hp⟩)
      · exact .inl h
      · exact .inr ⟨_, ⟨k, by simp, h.1, rfl⟩, h.2⟩
      · have ⟨j, hj, hb⟩ := h
        exact .inr ⟨qx, ⟨j, by simp [hj], hb⟩, hsame qx h ▸ hp⟩
    · rintro (h | ⟨qx, ⟨j, hj, hb, rfl⟩, hp⟩)
      · exact .inl (.inl h)
      · rcases List.mem_cons.1 hj with rfl | hj
        · exact .inl (.inr ⟨hb, hp⟩)
        · exact .inr ⟨_, ⟨j, hj, hb, rfl⟩, (hsame _ ⟨j, hj, hb, rfl⟩).symm ▸ hp⟩

/-- One of the rows of a sprite has a 1 bit on the pixel (qx, qy). -/
abbrev RowsCover (vx vy : Byte) (row : Nat) (bs : List Byte) (qx : Fin 64) (qy : Fin 32) : Prop :=
  ∃ j, ∃ h : j < bs.length, rowAt vy (row + j) = qy ∧ ColsCover vx bs[j] [0, 1, 2, 3, 4, 5, 6, 7] qx

theorem mem_cols {k : Nat} : k ∈ [0, 1, 2, 3, 4, 5, 6, 7] ↔ k < 8 := by simp; omega

theorem rowsCover_cons {bs : List Byte} {qx : Fin 64} {qy : Fin 32} :
    RowsCover vx vy row (b :: bs) qx qy ↔
      (rowAt vy row = qy ∧ ColsCover vx b [0, 1, 2, 3, 4, 5, 6, 7] qx) ∨ RowsCover vx vy (row + 1) bs qx qy := by
  constructor
  · rintro ⟨j, hj, hy, hc⟩
    cases j with
    | zero => exact .inl ⟨hy, hc⟩
    | succ j => exact .inr ⟨j, by simpa using hj, by rw [← hy, Nat.add_assoc, Nat.add_comm 1 j], hc⟩
  · rintro (⟨hy, hc⟩ | ⟨j, hj, hy, hc⟩)
    · exact ⟨0, by simp, hy, hc⟩
    · exact ⟨j + 1, by simpa using hj, by rw [← hy, Nat.add_assoc, Nat.add_comm 1 j], hc⟩

/-- A screen row that one sprite row falls on, no later one falls on. -/
theorem rowsCover_later {bs : List Byte} (hr : bs.length < 32) {qx : Fin 64} {qy : Fin 32}
    (h : RowsCover vx vy (row + 1) bs qx qy) : rowAt vy row ≠ qy := by
  obtain ⟨j, hj, hy, -⟩ := h
  intro he
  have := rowAt_inj (by omega) (by omega) (he.trans hy.symm)
  omega

/-- Rows that are at most 32 fall on a pixel once: it changes if the bit that falls on it is 1. -/
theorem drawRows_pixel (bs : List Byte) (hr : bs.length ≤ 32) (qx : Fin 64) (qy : Fin 32) :
    pixel (drawRows vx vy row bs c).screen qx qy =
      (pixel c.screen qx qy ^^ decide (RowsCover vx vy row bs qx qy)) := by
  induction bs generalizing row c with
  | nil => rw [decide_eq_false (by rintro ⟨j, hj, -⟩; simp at hj), Bool.xor_false]; rfl
  | cons b bs ih =>
    simp only [List.length_cons] at hr
    rw [drawRows, ih (by omega), drawCols_pixel _ (by decide) fun k hk => mem_cols.1 hk, Bool.xor_assoc]
    congr 1
    by_cases h2 : RowsCover vx vy (row + 1) bs qx qy
    · have h1 := rowsCover_later (by omega) h2
      rw [decide_eq_true h2, decide_eq_true (rowsCover_cons.2 (.inr h2)), decide_eq_false (fun h => h1 h.1)]; rfl
    · rw [decide_eq_false h2, Bool.xor_false]
      congr 1
      rw [rowsCover_cons, eq_iff_iff]
      exact ⟨.inl, fun h => h.resolve_right h2⟩

/-- A collision so far, or one with a pixel that was 1 before the drawing. -/
theorem drawRows_hit (bs : List Byte) (hr : bs.length ≤ 32) :
    (drawRows vx vy row bs c).hit = true ↔
      c.hit = true ∨ ∃ qx qy, RowsCover vx vy row bs qx qy ∧ pixel c.screen qx qy = true := by
  induction bs generalizing row c with
  | nil => simp [drawRows]
  | cons b bs ih =>
    simp only [List.length_cons] at hr
    have hsame : ∀ qx qy, RowsCover vx vy (row + 1) bs qx qy →
        pixel (drawCols vx vy row b [0, 1, 2, 3, 4, 5, 6, 7] c).screen qx qy = pixel c.screen qx qy := by
      intro qx qy h
      have h1 := rowsCover_later (by omega) h
      rw [drawCols_pixel _ (by decide) fun k hk => mem_cols.1 hk, decide_eq_false (fun h => h1 h.1), Bool.xor_false]
    rw [drawRows, ih (by omega), drawCols_hit _ (by decide) fun k hk => mem_cols.1 hk]
    constructor
    · rintro ((h | ⟨qx, hc, hp⟩) | ⟨qx, qy, hc, hp⟩)
      · exact .inl h
      · exact .inr ⟨qx, _, rowsCover_cons.2 (.inl ⟨rfl, hc⟩), hp⟩
      · exact .inr ⟨qx, qy, rowsCover_cons.2 (.inr hc), hsame qx qy hc ▸ hp⟩
    · rintro (h | ⟨qx, qy, hc, hp⟩)
      · exact .inl (.inl h)
      · rcases rowsCover_cons.1 hc with ⟨hy, hb⟩ | hb
        · exact .inl (.inr ⟨qx, hb, hy ▸ hp⟩)
        · exact .inr ⟨qx, qy, hb, (hsame qx qy hb).symm ▸ hp⟩

end Sys2Proof.Machine
end

