-- ==== Sys2Proof/Laws/PerInstr.lean ====
section
/-! SUPPORT. The family CanonicalWord: what each instruction's canonical word shows in its row's fixed bits
(R63, R67). One lemma for each constructor of Instr. -/

namespace Sys2Proof.Laws.CanonicalWord

/-- The leading nibble of an instruction's row (R63). -/
def leading : Instr → Nat
  | .clearScreen | .ret | .machineCall _ => 0x0
  | .jump _ => 0x1
  | .call _ => 0x2
  | .skipIfEqVal _ _ => 0x3
  | .skipIfNotEqVal _ _ => 0x4
  | .skipIfMatchReg _ _ => 0x5
  | .setRegister _ _ => 0x6
  | .add _ _ => 0x7
  | .assign _ _ | .or _ _ | .and _ _ | .xor _ _ | .addAssign _ _ | .subAssign _ _ | .shiftRight _
  | .flippedSubAssign _ _ | .shiftLeft _ => 0x8
  | .skipIfMismatchReg _ _ => 0x9
  | .setIdx _ => 0xA
  | .jumpTo _ => 0xB
  | .rand _ _ => 0xC
  | .draw _ _ _ => 0xD
  | .skipIfPressed _ | .skipIfNotPressed _ => 0xE
  | .storeDelay _ | .waitKey _ | .setDelay _ | .setSound _ | .incrementIdx _ | .newSprite _ | .bcd _
  | .dumpRegisters _ | .fillRegisters _ => 0xF

/-- An instruction's canonical word has its row's leading nibble, and is canonical. -/
def Statement (i : Instr) : Prop := (opOf (encode i)).toNat = leading i ∧ canonicalWord (encode i) = encode i

theorem loose_of_op {w : Word} (h : (opOf w).toNat ≠ 8) : canonicalWord w = w := by
  have : opOf w ≠ 0x8 := by rintro h'; rw [h'] at h; exact h rfl
  simp only [canonicalWord, isLooseShift, beq_eq_false_iff_ne.2 this, Bool.false_and, Bool.false_eq_true, if_false]

theorem of_encA {op : Nat} (h : op < 16) (h8 : op ≠ 8) (nnn : Addr) :
    (opOf (encA op nnn)).toNat = op ∧ canonicalWord (encA op nnn) = encA op nnn :=
  ⟨opOf_encA h nnn, loose_of_op (by rwa [opOf_encA h])⟩

theorem of_encI {op : Nat} (h : op < 16) (h8 : op ≠ 8) (x : RegIx) (kk : Byte) :
    (opOf (encI op x kk)).toNat = op ∧ canonicalWord (encI op x kk) = encI op x kk :=
  ⟨opOf_encI h x kk, loose_of_op (by rwa [opOf_encI h])⟩

theorem of_encR {op : Nat} (h : op < 16) (x y n : Fin 16) (hn : op ≠ 8 ∨ y = 0 ∨ (n.val ≠ 6 ∧ n.val ≠ 14)) :
    (opOf (encR op x y n)).toNat = op ∧ canonicalWord (encR op x y n) = encR op x y n := by
  refine ⟨opOf_encR h x y n, ?_⟩
  rcases hn with h8 | rfl | ⟨h6, h14⟩
  · exact loose_of_op (by rwa [opOf_encR h])
  · simp [canonicalWord, isLooseShift, yOf_encR h]
  · simp [canonicalWord, isLooseShift, nOf_encR h, h6, h14]

theorem clearScreen : Statement .clearScreen := ⟨by decide, by decide⟩
theorem ret : Statement .ret := ⟨by decide, by decide⟩
theorem machineCall (nnn : Addr) : Statement (.machineCall nnn) := of_encA (by decide) (by decide) nnn
theorem jump (nnn : Addr) : Statement (.jump nnn) := of_encA (by decide) (by decide) nnn
theorem call (nnn : Addr) : Statement (.call nnn) := of_encA (by decide) (by decide) nnn
theorem skipIfEqVal (x : RegIx) (kk : Byte) : Statement (.skipIfEqVal x kk) := of_encI (by decide) (by decide) x kk
theorem skipIfNotEqVal (x : RegIx) (kk : Byte) : Statement (.skipIfNotEqVal x kk) :=
  of_encI (by decide) (by decide) x kk
theorem skipIfMatchReg (x y : RegIx) : Statement (.skipIfMatchReg x y) :=
  of_encR (by decide) x y 0 (.inl (by decide))
theorem setRegister (x : RegIx) (kk : Byte) : Statement (.setRegister x kk) := of_encI (by decide) (by decide) x kk
theorem add (x : RegIx) (kk : Byte) : Statement (.add x kk) := of_encI (by decide) (by decide) x kk
theorem assign (x y : RegIx) : Statement (.assign x y) := of_encR (by decide) x y 0x0 (.inr (.inr (by decide)))
theorem or (x y : RegIx) : Statement (.or x y) := of_encR (by decide) x y 0x1 (.inr (.inr (by decide)))
theorem and (x y : RegIx) : Statement (.and x y) := of_encR (by decide) x y 0x2 (.inr (.inr (by decide)))
theorem xor (x y : RegIx) : Statement (.xor x y) := of_encR (by decide) x y 0x3 (.inr (.inr (by decide)))
theorem addAssign (x y : RegIx) : Statement (.addAssign x y) := of_encR (by decide) x y 0x4 (.inr (.inr (by decide)))
theorem subAssign (x y : RegIx) : Statement (.subAssign x y) := of_encR (by decide) x y 0x5 (.inr (.inr (by decide)))
theorem shiftRight (x : RegIx) : Statement (.shiftRight x) := of_encR (by decide) x 0 0x6 (.inr (.inl rfl))
theorem flippedSubAssign (x y : RegIx) : Statement (.flippedSubAssign x y) :=
  of_encR (by decide) x y 0x7 (.inr (.inr (by decide)))
theorem shiftLeft (x : RegIx) : Statement (.shiftLeft x) := of_encR (by decide) x 0 0xE (.inr (.inl rfl))
theorem skipIfMismatchReg (x y : RegIx) : Statement (.skipIfMismatchReg x y) :=
  of_encR (by decide) x y 0 (.inl (by decide))
theorem setIdx (nnn : Addr) : Statement (.setIdx nnn) := of_encA (by decide) (by decide) nnn
theorem jumpTo (nnn : Addr) : Statement (.jumpTo nnn) := of_encA (by decide) (by decide) nnn
theorem rand (x : RegIx) (kk : Byte) : Statement (.rand x kk) := of_encI (by decide) (by decide) x kk
theorem draw (x y : RegIx) (n : Fin 16) : Statement (.draw x y n) := of_encR (by decide) x y n (.inl (by decide))
theorem skipIfPressed (x : RegIx) : Statement (.skipIfPressed x) := of_encI (by decide) (by decide) x 0x9E
theorem skipIfNotPressed (x : RegIx) : Statement (.skipIfNotPressed x) := of_encI (by decide) (by decide) x 0xA1
theorem storeDelay (x : RegIx) : Statement (.storeDelay x) := of_encI (by decide) (by decide) x 0x07
theorem waitKey (x : RegIx) : Statement (.waitKey x) := of_encI (by decide) (by decide) x 0x0A
theorem setDelay (x : RegIx) : Statement (.setDelay x) := of_encI (by decide) (by decide) x 0x15
theorem setSound (x : RegIx) : Statement (.setSound x) := of_encI (by decide) (by decide) x 0x18
theorem incrementIdx (x : RegIx) : Statement (.incrementIdx x) := of_encI (by decide) (by decide) x 0x1E
theorem newSprite (x : RegIx) : Statement (.newSprite x) := of_encI (by decide) (by decide) x 0x29
theorem bcd (x : RegIx) : Statement (.bcd x) := of_encI (by decide) (by decide) x 0x33
theorem dumpRegisters (x : RegIx) : Statement (.dumpRegisters x) := of_encI (by decide) (by decide) x 0x55
theorem fillRegisters (x : RegIx) : Statement (.fillRegisters x) := of_encI (by decide) (by decide) x 0x65

end Sys2Proof.Laws.CanonicalWord
end

