-- ==== Sys2Proof/Tests/Slice0.lean ====
section
/-! SUPPORT. The model's own tests: ill-formed instructions, words written out from 30_encoding.md, single steps with
the results of 95_test_vectors.md (the vector's number stands at each), and a witness for every statement with
hypotheses. -/

namespace Sys2Proof.Tests

open Sys2Proof.Machine

-- One thread: each of the many small kernel evaluations below would start its own.
set_option Elab.async false

/-! ## Helpers -/

/-- Reset, with a word where the next step fetches. -/
def placed (w : Nat) : State := State.reset.withFetchWord 16 w

/-- All registers 0 but these. -/
def regs (l : List (Nat × Byte)) : Vector Byte 16 :=
  l.foldl (fun v p => v.setIfInBounds p.1 p.2) (Vector.replicate 16 0)

/-- Only these keys down. -/
def keysDown (l : List Nat) : Vector Bool 16 :=
  l.foldl (fun v k => v.setIfInBounds k true) (Vector.replicate 16 false)

/-- A screen with these pixels on. -/
def lit (l : List (Fin 64 × Fin 32)) : Screen := l.foldl (fun s p => invertPixel s p.1 p.2) (Vector.replicate 32 0)

/-- One step ends in a next state with this property. -/
def ran (s : State) (p : State → Bool) : Bool :=
  match step s with
  | .next t => p t
  | .fault _ => false
  | .refused _ => false

theorem of_ran {s : State} {p : State → Bool} (h : ran s p = true) : ∃ t, step s = .next t ∧ p t = true := by
  obtain ⟨t, ht⟩ := step_total s
  refine ⟨t, ht, ?_⟩
  simpa only [ran, ht] using h

/-- Completed, with pc two further: what every vector leaves that says nothing else. -/
def ok (t : State) : Bool := t.fault == none && t.result == some .completed && t.pc == 0x202

/-- A faulting step: the latch, the result, pc where it was. -/
def faulted (f : Fault) (t : State) : Bool :=
  t.fault == some f && t.result == some (.fault f) && t.pc == 0x200

/-! ## Ill-formed instructions (R67) -/

theorem test_illFormed_machineCall_0E0 : (Instr.machineCall 0x0E0).wellFormed = false := by decide
theorem test_illFormed_machineCall_0EE : (Instr.machineCall 0x0EE).wellFormed = false := by decide
theorem test_wellFormed_machineCall_0EF : (Instr.machineCall 0x0EF).wellFormed = true := by decide

/-! ## Decoding, word by word (95_test_vectors.md section 2.1; bits from R62 and R63) -/

theorem test_decode_group0 :
    decode 0b0000_0000_1110_0000 = .instr .clearScreen ∧ decode 0b0000_0000_1110_1110 = .instr .ret ∧
    decode 0b0000_0001_0010_0011 = .instr (.machineCall 0x123) ∧
    decode 0b0000_0000_1110_0001 = .instr (.machineCall 0x0E1) ∧
    decode 0b0000_0000_1110_1111 = .instr (.machineCall 0x0EF) ∧
    decode 0b0000_0000_0000_0000 = .instr (.machineCall 0x000) ∧
    decode 0b0000_1111_1111_1111 = .instr (.machineCall 0xFFF) := by decide

theorem test_decode_jumps :
    decode 0b0001_1010_1011_1100 = .instr (.jump 0xABC) ∧ decode 0b0010_0010_1111_0000 = .instr (.call 0x2F0) ∧
    decode 0b1011_0011_0000_0000 = .instr (.jumpTo 0x300) := by decide

theorem test_decode_skips :
    decode 0b0011_0001_0000_0000 = .instr (.skipIfEqVal 1 0x00) ∧
    decode 0b0100_1010_0101_0101 = .instr (.skipIfNotEqVal 0xA 0x55) ∧
    decode 0b0101_0001_0010_0000 = .instr (.skipIfMatchReg 1 2) ∧
    decode 0b1001_0001_0010_0000 = .instr (.skipIfMismatchReg 1 2) ∧
    decode 0b1110_0011_1001_1110 = .instr (.skipIfPressed 3) ∧
    decode 0b1110_0011_1010_0001 = .instr (.skipIfNotPressed 3) := by decide

theorem test_decode_alu :
    decode 0b0110_0001_1010_1011 = .instr (.setRegister 1 0xAB) ∧ decode 0b0111_0001_0000_0101 = .instr (.add 1 0x05) ∧
    decode 0b1000_0001_0010_0000 = .instr (.assign 1 2) ∧ decode 0b1000_0001_0010_0001 = .instr (.or 1 2) ∧
    decode 0b1000_0001_0010_0010 = .instr (.and 1 2) ∧ decode 0b1000_0001_0010_0011 = .instr (.xor 1 2) ∧
    decode 0b1000_1011_1100_0100 = .instr (.addAssign 0xB 0xC) ∧
    decode 0b1000_0001_0010_0101 = .instr (.subAssign 1 2) ∧
    decode 0b1000_0001_0010_0111 = .instr (.flippedSubAssign 1 2) := by decide

/-- R66: nibble 2 of a shift is ignored. -/
theorem test_decode_shifts :
    decode 0b1000_1010_1011_0110 = .instr (.shiftRight 0xA) ∧ decode 0b1000_1010_0000_0110 = .instr (.shiftRight 0xA) ∧
    decode 0b1000_1010_0000_1110 = .instr (.shiftLeft 0xA) ∧ decode 0b1000_1010_1111_1110 = .instr (.shiftLeft 0xA) := by
  decide

theorem test_decode_index_memory :
    decode 0b1010_0010_1111_0000 = .instr (.setIdx 0x2F0) ∧ decode 0b1111_0010_0001_1110 = .instr (.incrementIdx 2) ∧
    decode 0b1111_0001_0010_1001 = .instr (.newSprite 1) ∧ decode 0b1111_0001_0011_0011 = .instr (.bcd 1) ∧
    decode 0b1111_0010_0101_0101 = .instr (.dumpRegisters 2) ∧
    decode 0b1111_0010_0110_0101 = .instr (.fillRegisters 2) := by decide

theorem test_decode_display_timers :
    decode 0b1101_0001_0010_0101 = .instr (.draw 1 2 5) ∧ decode 0b1100_0011_0000_1111 = .instr (.rand 3 0x0F) ∧
    decode 0b1111_0010_0000_0111 = .instr (.storeDelay 2) ∧ decode 0b1111_0001_0000_1010 = .instr (.waitKey 1) ∧
    decode 0b1111_0000_0001_0101 = .instr (.setDelay 0) ∧ decode 0b1111_0001_0001_1000 = .instr (.setSound 1) := by
  decide

theorem test_decode_unrecognized :
    ∀ w ∈ [0x5121, 0x512F, 0x9121, 0x8128, 0x8129, 0x812A, 0x812B, 0x812C, 0x812D, 0x812F, 0xE000, 0xE19F, 0xE1A0,
      0xE09D, 0xF000, 0xF106, 0xF10B, 0xF116, 0xF11F, 0xF130, 0xF134, 0xF175, 0xF185, 0xF1FF, 0xF01D],
      decode (BitVec.ofNat 16 w) = .unrecognized (BitVec.ofNat 16 w) := by decide

theorem test_encode :
    encode (.draw 1 2 5) = 0b1101_0001_0010_0101 ∧ encode (.shiftLeft 0xA) = 0b1000_1010_0000_1110 ∧
    encode (.machineCall 0x0E1) = 0b0000_0000_1110_0001 ∧ encode (.skipIfNotPressed 3) = 0b1110_0011_1010_0001 := by
  decide

theorem test_decodeTableWord :
    decodeTableWord 16 0x8BC4 = some (.addAssign 0xB 0xC) ∧ decodeTableWord 16 0x00EE = some .ret ∧
    decodeTableWord 16 0x5121 = none ∧ decodeTableWord 32 0x00E0 = none := by decide

/-- R70. -/
theorem test_asmText : asmText (.addAssign 0xB 0xC) = "AddAssign(11,12)" ∧ asmText .clearScreen = "ClearScreen" := by
  decide +kernel

/-- R5: the numbers the types and definitions of the model use are the fixed parameters. -/
theorem test_parameters :
    Config.addrMax + 1 = Config.memSize ∧ Config.maxRom = Config.memSize - Config.programBase ∧
    State.reset.pc.toNat = Config.programBase ∧ Config.fontLen = 16 * Config.glyphLen ∧
    (glyphAddr 1).toNat = Config.fontBase + Config.glyphLen ∧ Config.screenW * Config.screenH = 2048 ∧
    2 ^ Config.regWidth = 256 ∧ Config.nregs = 16 ∧ Config.nkeys = 16 ∧ Config.stackDepth = 16 ∧
    State.reset.advance.pc.toNat = Config.programBase + Config.instrBytes := by decide

/-! ## One step for each instruction -/

/-- G14. -/
theorem test_clearScreen : ran { placed 0x00E0 with screen := lit [(0, 0), (5, 0), (63, 31)], v := regs [(15, 1)], drawFlag := false } (fun t => ok t && t.screen == lit [] && t.reg 15 == 1 && t.drawFlag) = true := by decide +kernel

/-- K7 (at pc = 0x200). -/
theorem test_ret : ran { State.reset.withFetchWord 16 0x00EE with stack := (Vector.replicate 16 0).set 0 0x204, sp := 1 } (fun t => t.result == some .completed && t.pc == 0x206 && t.sp == 0 && t.stack[0] == 0x204) = true := by decide +kernel

/-- K8. -/
theorem test_ret_empty : ran (placed 0x00EE) (fun t => faulted .stackUnderflow t && t.sp == 0) = true := by decide +kernel

/-- K12. -/
theorem test_machineCall : ran (placed 0x0123) (fun t => faulted (.machineCallUnsupported 0x123) t) = true := by decide +kernel

/-- K13. -/
theorem test_machineCall_nop : ran { placed 0x0123 with cfg := { defaultConfig with machineCallEffect := .nop } } (fun t => ok t) = true := by decide +kernel

/-- K1. -/
theorem test_jump : ran (placed 0x1ABC) (fun t => t.result == some .completed && t.pc == 0xABC) = true := by decide +kernel

/-- K5, with the target of K4. -/
theorem test_call : ran { (placed 0x22F0) with sp := 15 } (fun t => t.result == some .completed && t.pc == 0x2F0 && t.sp == 16 && t.stack[15] == 0x200 && t.stack[14] == 0) = true := by decide +kernel

/-- K6. -/
theorem test_call_full : ran { placed 0x2300 with sp := 16 } (fun t => faulted .stackOverflow t && t.sp == 16) = true := by decide +kernel

/-- J1. -/
theorem test_skipIfEqVal : ran (placed 0x3100) (fun t => t.result == some .completed && t.pc == 0x204) = true := by decide +kernel

/-- J2. -/
theorem test_skipIfEqVal_not : ran { placed 0x3100 with v := regs [(1, 4)] } (fun t => ok t) = true := by decide +kernel

/-- J3. -/
theorem test_skipIfNotEqVal : ran { placed 0x4A55 with v := regs [(10, 84)] } (fun t => t.result == some .completed && t.pc == 0x204) = true := by decide +kernel

/-- J4. -/
theorem test_skipIfNotEqVal_not : ran { placed 0x4A55 with v := regs [(10, 85)] } (fun t => ok t) = true := by decide +kernel

/-- J5. -/
theorem test_skipIfMatchReg : ran { placed 0x5120 with v := regs [(1, 7), (2, 7)] } (fun t => t.result == some .completed && t.pc == 0x204) = true := by decide +kernel

/-- J6. -/
theorem test_skipIfMatchReg_not : ran { placed 0x5120 with v := regs [(1, 7), (2, 8)] } (fun t => ok t) = true := by decide +kernel

/-- A1. -/
theorem test_setRegister : ran (placed 0x61AB) (fun t => ok t && t.reg 1 == 171 && t.reg 15 == 0) = true := by decide +kernel

/-- A2. -/
theorem test_add_wraps : ran { placed 0x7105 with v := regs [(1, 254), (15, 1)] } (fun t => ok t && t.reg 1 == 3 && t.reg 15 == 1) = true := by decide +kernel

/-- A4. -/
theorem test_add_vF : ran { placed 0x7F01 with v := regs [(15, 255)] } (fun t => ok t && t.reg 15 == 0) = true := by decide +kernel

/-- A5. -/
theorem test_assign : ran { placed 0x8120 with v := regs [(1, 1), (2, 119), (15, 1)] } (fun t => ok t && t.reg 1 == 119 && t.reg 2 == 119 && t.reg 15 == 1) = true := by decide +kernel

/-- A6. -/
theorem test_or : ran { placed 0x8121 with v := regs [(1, 240), (2, 15), (15, 1)] } (fun t => ok t && t.reg 1 == 255 && t.reg 15 == 1) = true := by decide +kernel

/-- A7. -/
theorem test_and : ran { placed 0x8122 with v := regs [(1, 243), (2, 63), (15, 1)] } (fun t => ok t && t.reg 1 == 51 && t.reg 15 == 1) = true := by decide +kernel

/-- A8. -/
theorem test_xor : ran { placed 0x8123 with v := regs [(1, 255), (2, 15), (15, 1)] } (fun t => ok t && t.reg 1 == 240 && t.reg 15 == 1) = true := by decide +kernel

/-- S2. -/
theorem test_addAssign : ran { placed 0x8124 with v := regs [(1, 250), (2, 15)] } (fun t => ok t && t.reg 1 == 9 && t.reg 2 == 15 && t.reg 15 == 1) = true := by decide +kernel

/-- A13. -/
theorem test_addAssign_to_vF : ran { placed 0x8F14 with v := regs [(15, 200), (1, 100)] } (fun t => ok t && t.reg 15 == 1 && t.reg 1 == 100) = true := by decide +kernel

/-- S5. -/
theorem test_subAssign : ran { placed 0x8125 with v := regs [(1, 10), (2, 13), (15, 1)] } (fun t => ok t && t.reg 1 == 253 && t.reg 15 == 0) = true := by decide +kernel

/-- A16. -/
theorem test_subAssign_equal : ran { placed 0x8125 with v := regs [(1, 5), (2, 5)] } (fun t => ok t && t.reg 1 == 0 && t.reg 15 == 1) = true := by decide +kernel

/-- A28. -/
theorem test_shiftRight : ran { placed 0x83A6 with v := regs [(3, 255), (10, 16)] } (fun t => ok t && t.reg 3 == 127 && t.reg 15 == 1 && t.reg 10 == 16) = true := by decide +kernel

/-- A26. -/
theorem test_shiftRight_even : ran { placed 0x8106 with v := regs [(1, 4), (15, 1)] } (fun t => ok t && t.reg 1 == 2 && t.reg 15 == 0) = true := by decide +kernel

/-- A24. -/
theorem test_flippedSubAssign : ran { placed 0x8127 with v := regs [(1, 10), (2, 13)] } (fun t => ok t && t.reg 1 == 3 && t.reg 15 == 1) = true := by decide +kernel

/-- A22. -/
theorem test_flippedSubAssign_borrow : ran { placed 0x8127 with v := regs [(1, 1), (15, 1)] } (fun t => ok t && t.reg 1 == 255 && t.reg 15 == 0) = true := by decide +kernel

/-- A31. -/
theorem test_shiftLeft : ran { placed 0x810E with v := regs [(1, 65), (15, 1)] } (fun t => ok t && t.reg 1 == 130 && t.reg 15 == 0) = true := by decide +kernel

/-- A32. -/
theorem test_shiftLeft_vF : ran { placed 0x8F0E with v := regs [(15, 129)] } (fun t => ok t && t.reg 15 == 1) = true := by decide +kernel

/-- J8. -/
theorem test_skipIfMismatchReg : ran { placed 0x9120 with v := regs [(1, 7), (2, 8)] } (fun t => t.result == some .completed && t.pc == 0x204) = true := by decide +kernel

/-- J9. -/
theorem test_skipIfMismatchReg_not : ran { placed 0x9120 with v := regs [(1, 7), (2, 7)] } (fun t => ok t) = true := by decide +kernel

/-- M1. -/
theorem test_setIdx : ran { placed 0xAFFF with v := regs [(15, 1)] } (fun t => ok t && t.idx == 0xFFF && t.reg 15 == 1) = true := by decide +kernel

/-- K11. -/
theorem test_jumpTo : ran { placed 0xBFFF with v := regs [(0, 255)] } (fun t => t.result == some .completed && t.pc == 0x10FE) = true := by decide +kernel

/-- T20. -/
theorem test_rand : ran { placed 0xC30F with inputs := { quit := false, keys := 0, rnd := 0xA7 } } (fun t => ok t && t.reg 3 == 7) = true := by decide +kernel

/-- G4. -/
theorem test_draw_wraps : ran { (placed 0xD011).storeFrom 0x300 [0xC0] with idx := 0x300, v := regs [(0, 0xFF), (1, 0xFF)], drawFlag := false } (fun t => ok t && t.screen == lit [(63, 31), (0, 31)] && t.reg 15 == 0 && t.drawFlag) = true := by decide +kernel

/-- G5. -/
theorem test_draw_collides : ran { (placed 0xD011).storeFrom 0x300 [0xC0] with idx := 0x300, screen := lit [(0, 0)] } (fun t => ok t && t.screen == lit [(1, 0)] && t.reg 15 == 1) = true := by decide +kernel

/-- J15. -/
theorem test_skipIfPressed : ran { placed 0xE39E with v := regs [(3, 10)], inputs := { quit := false, keys := 0x400, rnd := 0 } } (fun t => ok t && t.key == keysDown [0xA]) = true := by decide +kernel

/-- J11. -/
theorem test_skipIfPressed_down : ran { placed 0xE39E with v := regs [(3, 10)], key := keysDown [0xA] } (fun t => t.result == some .completed && t.pc == 0x204) = true := by decide +kernel

/-- J13. -/
theorem test_skipIfNotPressed : ran { placed 0xE3A1 with v := regs [(3, 10)], key := keysDown [0xB] } (fun t => t.result == some .completed && t.pc == 0x204) = true := by decide +kernel

/-- J16. -/
theorem test_skipIfNotPressed_range : ran { placed 0xE3A1 with v := regs [(3, 255)] } (fun t => faulted (.keyIndexOutOfRange 0xFF) t) = true := by decide +kernel

/-- T1. -/
theorem test_storeDelay : ran { placed 0xF207 with dt := 7 } (fun t => ok t && t.reg 2 == 7 && t.dt == 6) = true := by decide +kernel

/-- T2. -/
theorem test_storeDelay_zero : ran { placed 0xF207 with v := regs [(2, 9)] } (fun t => ok t && t.reg 2 == 0 && t.dt == 0) = true := by decide +kernel

/-- T17. -/
theorem test_waitKey : ran { placed 0xF10A with v := regs [(1, 9)], key := keysDown [3, 0xB, 0xF] } (fun t => ok t && t.reg 1 == 3) = true := by decide +kernel

/-- T14, T19. -/
theorem test_waitKey_waits : ran { placed 0xF10A with v := regs [(1, 9)], dt := 4 } (fun t => t.result == some .completed && t.pc == 0x200 && t.reg 1 == 9 && t.dt == 3) = true := by decide +kernel

/-- T3. -/
theorem test_setDelay : ran { placed 0xF015 with v := regs [(0, 3)] } (fun t => ok t && t.dt == 2) = true := by decide +kernel

/-- T7. -/
theorem test_setSound : ran { placed 0xF118 with v := regs [(1, 1)] } (fun t => ok t && t.st == 0 && t.alert) = true := by decide +kernel

/-- T6. -/
theorem test_setSound_cancels : ran { placed 0xF118 with st := 5 } (fun t => ok t && t.st == 0 && !t.alert) = true := by decide +kernel

/-- M7. -/
theorem test_incrementIdx : ran { placed 0xF11E with idx := 0xFFF, v := regs [(1, 255)] } (fun t => ok t && t.idx == 0x0FE && t.reg 15 == 1) = true := by decide +kernel

/-- M7 with the literal modulus. -/
theorem test_incrementIdx_literal : ran { placed 0xF11E with idx := 0xFFF, v := regs [(1, 255)], cfg := { defaultConfig with idxAddModulus := .literalFFF } } (fun t => ok t && t.idx == 0x0FF && t.reg 15 == 1) = true := by decide +kernel

/-- M12. -/
theorem test_newSprite : ran { placed 0xF129 with v := regs [(1, 255)] } (fun t => ok t && t.idx == 0x4FB) = true := by decide +kernel

/-- M14. -/
theorem test_bcd : ran { placed 0xF133 with idx := 0xFFD, v := regs [(1, 255)] } (fun t => ok t && t.memRead 0xFFD == 2 && t.memRead 0xFFE == 5 && t.memRead 0xFFF == 5) = true := by decide +kernel

/-- M15. -/
theorem test_bcd_range : ran { placed 0xF133 with idx := 0xFFE, v := regs [(1, 255)] } (fun t => faulted (.memOutOfRange 0x1000) t && t.memRead 0xFFE == 0 && t.memRead 0xFFF == 0) = true := by decide +kernel

/-- M16. -/
theorem test_dumpRegisters : ran { placed 0xF255 with idx := 0x400, v := regs [(0, 17), (1, 34), (2, 51), (3, 68)] } (fun t => ok t && t.memRead 0x400 == 0x11 && t.memRead 0x401 == 0x22 && t.memRead 0x402 == 0x33 && t.memRead 0x403 == 0 && t.idx == 0x400) = true := by decide +kernel

/-- M18. -/
theorem test_dumpRegisters_range : ran { placed 0xFF55 with idx := 0xFF1, v := regs [(0, 9)] } (fun t => faulted (.memOutOfRange 0x1000) t && t.memRead 0xFF1 == 0) = true := by decide +kernel

/-- M20. -/
theorem test_fillRegisters : ran { (placed 0xF265).storeFrom 0x300 [0x0A, 0x0B, 0x0C, 0x0D] with idx := 0x300, v := regs [(3, 0x99)] } (fun t => ok t && t.reg 0 == 0x0A && t.reg 1 == 0x0B && t.reg 2 == 0x0C && t.reg 3 == 0x99 && t.idx == 0x300) = true := by decide +kernel

/-- M23. -/
theorem test_fillRegisters_font : ran (placed 0xF465) (fun t => ok t && t.reg 0 == 0xF0 && t.reg 1 == 0x90 && t.reg 2 == 0x90 && t.reg 3 == 0x90 && t.reg 4 == 0xF0) = true := by decide +kernel

/-! ## Steps that run no instruction, and the host events -/

/-- T12. -/
theorem test_invalid : ran { placed 0x5121 with dt := 5, st := 1, inputs := { quit := false, keys := 8, rnd := 0 } } (fun t => faulted (.invalidOpcode 0x5121) t && t.dt == 5 && t.st == 1 && !t.alert && t.key == keysDown []) = true := by decide +kernel

/-- T13, E7. -/
theorem test_quit : ran { placed 0x00EE with dt := 5, st := 1, inputs := { quit := true, keys := 0, rnd := 0 } } (fun t => t.result == some .quit && t.fault == none && t.dt == 5 && t.st == 1 && !t.alert && t.pc == 0x200) = true := by decide +kernel

/-- J17, second step. -/
theorem test_pc_out_of_range : ran { State.reset with pc := 0x1002 } (fun t => t.fault == some (.pcOutOfRange 0x1002) && t.pc == 0x1002) = true := by decide +kernel

/-- E8. -/
theorem test_latched : ran { placed 0x00EE with fault := some .stackUnderflow, inputs := { quit := false, keys := 2, rnd := 0 } } (fun t => faulted .stackUnderflow t && t.key == keysDown []) = true := by decide +kernel

/-- T9. -/
theorem test_ticks : ran { placed 0x6000 with dt := 1, st := 1 } (fun t => ok t && t.dt == 0 && t.st == 0 && t.alert) = true := by decide +kernel

/-- E6. -/
theorem test_from_reset : ran State.reset (fun t => faulted (.machineCallUnsupported 0x000) t) = true := by decide +kernel

/-- S9: the tail of an earlier program is gone. -/
theorem test_load : ((State.reset.load [0x60, 0xFF, 0xA3, 0x00]).1.load [0x12, 0x00]).1 =
    { State.reset with mem := [(0x200, 0x12)] } := by decide +kernel

/-- E2, E3: 3584 bytes are the most. -/
theorem test_load_size :
    (State.reset.load (List.replicate 3584 0)).2 = .loaded 3584 ∧
    (State.reset.load (List.replicate 3585 0)).2 = .romTooLarge := by decide +kernel

/-- R25, R18: screen_out is the screen, pixel (5, 1) at index 5 + 64 * 1. -/
theorem test_outputs : State.reset.outputs.drawFlag = true ∧ State.reset.outputs.fault = none ∧
    ({ State.reset with screen := lit [(5, 1)] } : State).outputs.screenOut[69]? = some true ∧
    ({ State.reset with screen := lit [(5, 1)] } : State).outputs.screenOut.count true = 1 := by decide +kernel

/-- E5. -/
theorem test_frameAck : State.reset.frameAck = { State.reset with drawFlag := false } := by decide +kernel

/-- A store that an earlier test would not show: writing the value an address reads as removes its entry. -/
theorem test_canonical_write :
    Memory.write defaultFont [(0x300, 5)] 0x300 0 = [] ∧ Memory.write defaultFont [] 0x000 0xF0 = [] ∧
    Memory.write defaultFont [(0x300, 5)] 0x2FF 7 = [(0x2FF, 7), (0x300, 5)] := by decide +kernel

/-! ## Witnesses: for each statement with hypotheses, states and operands that meet them -/

/-- One instruction answers a next state with this property. -/
def does (i : Instr) (s : State) (p : State → Bool) : Bool :=
  match exec i s with
  | .next t => p t
  | .fault _ => false
  | .refused _ => false

theorem of_does {i : Instr} {s : State} {p : State → Bool} (h : does i s p = true) :
    ∃ t, exec i s = .next t ∧ p t = true := by
  obtain ⟨t, ht, -⟩ := exec_total i s
  refine ⟨t, ht, ?_⟩
  simpa only [does, ht] using h

/-- No inputs. -/
def idle : Inputs := { quit := false, keys := 0, rnd := 0 }

theorem witness_DecodeOfEncode :
    (Instr.machineCall 0x0EF).wellFormed = true ∧ (Instr.draw 15 15 15).wellFormed = true := by decide

theorem witness_EncodeOfDecode :
    (Instr.machineCall 0x0E0).wellFormed = false ∧ (Instr.machineCall 0x0EE).wellFormed = false := by decide

theorem witness_AlgorithmAgreesWithTable :
    ((0x00E0 : Word) &&& 0xFFFF = 0x00E0) ∧ ((0x00E0 : Word) &&& 0xF000 = 0x0000) := by decide

theorem witness_UnrecognizedWords :
    decode 0x5121 = .unrecognized 0x5121 ∧ decode 0x812F = .unrecognized 0x812F ∧
    decode 0x912F = .unrecognized 0x912F ∧ decode 0xE19F = .unrecognized 0xE19F ∧
    decode 0xF166 = .unrecognized 0xF166 := by decide

theorem witness_OnlyShiftsIgnoreBits :
    decode 0x8AB6 = .instr (.shiftRight 0xA) ∧ decode 0x8A06 = .instr (.shiftRight 0xA) ∧
    (0x8AB6 : Word) ≠ 0x8A06 := by decide

theorem witness_FetchIsBigEndian : ({ State.reset with pc := 0xFFE } : State).pc.toNat ≤ 0xFFE := by decide

/-- Both ends of a step: one completes, one faults. -/
theorem witness_StepRunsDecodedInstruction :
    ((placed 0x6105).fault = none ∧ (placed 0x6105).inputs.quit = false ∧ (placed 0x6105).fetch = some 0x6105 ∧
      decode 0x6105 = .instr (.setRegister 1 5) ∧
      ∃ t, exec (.setRegister 1 5) (placed 0x6105) = .next t ∧ t.fault = none) ∧
    ((placed 0x00EE).fault = none ∧ (placed 0x00EE).inputs.quit = false ∧ (placed 0x00EE).fetch = some 0x00EE ∧
      decode 0x00EE = .instr .ret ∧
      ∃ t, exec .ret (placed 0x00EE) = .next t ∧ t.fault = some .stackUnderflow) := by
  refine ⟨⟨by decide, by decide, by decide +kernel, by decide, ?_⟩, by decide, by decide, by decide +kernel, by decide, ?_⟩
  · obtain ⟨t, h, hp⟩ := of_does (show does (.setRegister 1 5) (placed 0x6105) (fun t => t.fault == none) = true by
      decide +kernel)
    exact ⟨t, h, by simpa using hp⟩
  · obtain ⟨t, h, hp⟩ := of_does (show does .ret (placed 0x00EE) (fun t => t.fault == some .stackUnderflow) = true by
      decide +kernel)
    exact ⟨t, h, by simpa using hp⟩

theorem witness_FaultedMachineStays :
    ({ State.reset with fault := some .stackOverflow } : State).fault = some .stackOverflow := by decide

theorem witness_QuitStepDoesNothing :
    (State.reset.present { idle with quit := true } []).fault = none ∧
    (State.reset.present { idle with quit := true } []).inputs.quit = true := by decide

theorem witness_FetchBeyondMemoryFaults :
    ({ State.reset with pc := 0xFFF } : State).fault = none ∧
    ({ State.reset with pc := 0xFFF } : State).inputs.quit = false ∧
    ({ State.reset with pc := 0xFFF } : State).pc.toNat > 0xFFE := by decide

theorem witness_UnrecognizedWordFaults :
    (placed 0x5121).fault = none ∧ (placed 0x5121).inputs.quit = false ∧ (placed 0x5121).fetch = some 0x5121 ∧
    decode 0x5121 = .unrecognized 0x5121 := by decide +kernel

theorem witness_FaultsArePrecise :
    (placed 0x00EE).fault = none ∧ ∃ t, step (placed 0x00EE) = .next t ∧ t.fault = some .stackUnderflow := by
  refine ⟨by decide, ?_⟩
  obtain ⟨t, h, hp⟩ := of_ran (show ran (placed 0x00EE) (fun t => t.fault == some .stackUnderflow) = true by
    decide +kernel)
  exact ⟨t, h, by simpa using hp⟩

/-- Each fault of the table at the boundary of its condition, and just inside it. -/
theorem witness_InstructionFaults :
    State.reset.fault = none ∧
    faultOf (.call 0) { State.reset with sp := 16 } = some .stackOverflow ∧
    faultOf (.call 0) { State.reset with sp := 15 } = none ∧
    faultOf .ret State.reset = some .stackUnderflow ∧ faultOf .ret { State.reset with sp := 1 } = none ∧
    faultOf (.bcd 0) { State.reset with idx := 0xFFE } = some (.memOutOfRange 0x1000) ∧
    faultOf (.bcd 0) { State.reset with idx := 0xFFD } = none ∧
    faultOf (.dumpRegisters 1) { State.reset with idx := 0xFFF } = some (.memOutOfRange 0x1000) ∧
    faultOf (.fillRegisters 0) { State.reset with idx := 0xFFF } = none ∧
    faultOf (.draw 0 0 2) { State.reset with idx := 0xFFF } = some (.memOutOfRange 0x1000) ∧
    faultOf (.draw 0 0 0) { State.reset with idx := 0xFFF } = none ∧
    faultOf (.skipIfPressed 0) { State.reset with v := regs [(0, 16)] } = some (.keyIndexOutOfRange 16) ∧
    faultOf (.skipIfNotPressed 0) { State.reset with v := regs [(0, 15)] } = none ∧
    faultOf (.machineCall 7) State.reset = some (.machineCallUnsupported 7) := by decide +kernel

/-- One state for each clause. -/
theorem witness_FaultPriority :
    (State.reset.present { idle with quit := true } []).fault = none ∧
    (State.reset.present { idle with quit := true } []).inputs.quit = true ∧
    ({ State.reset with pc := 0xFFF } : State).pc.toNat > 0xFFE ∧
    ({ State.reset with pc := 0xFFF } : State).inputs.quit = false ∧
    ((placed 0x5121).fetch = some 0x5121 ∧ decode 0x5121 = .unrecognized 0x5121) ∧
    ((placed 0x00EE).fetch = some 0x00EE ∧ decode 0x00EE = .instr .ret) := by decide +kernel

/-- A completed step that sets the timer, one that does not complete, and a step of another instruction. -/
theorem witness_DelayTimer :
    (∃ t, step { placed 0xF015 with v := regs [(0, 3)] } = .next t ∧ t.result = some .completed) ∧
    (∃ t, step (placed 0x00EE) = .next t ∧ t.result ≠ some .completed) ∧
    (∀ w x, (placed 0x00EE).fetch = some w → decode w ≠ .instr (.storeDelay x)) := by
  refine ⟨?_, ?_, ?_⟩
  · obtain ⟨t, h, hp⟩ := of_ran (show ran { placed 0xF015 with v := regs [(0, 3)] }
      (fun t => t.result == some .completed) = true by decide +kernel)
    exact ⟨t, h, by simpa using hp⟩
  · obtain ⟨t, h, hp⟩ := of_ran (show ran (placed 0x00EE) (fun t => t.result != some .completed) = true by
      decide +kernel)
    exact ⟨t, h, by simpa using hp⟩
  · intro w x h
    rw [show (placed 0x00EE).fetch = some 0x00EE by decide +kernel] at h
    cases h
    rw [show decode 0x00EE = .instr .ret by decide]
    intro h; cases h

theorem witness_SoundTimer :
    (∃ t, step { placed 0x6000 with st := 1 } = .next t ∧ t.result = some .completed ∧ t.alert = true) ∧
    (∃ t, step { placed 0x00EE with st := 1 } = .next t ∧ t.result ≠ some .completed) := by
  refine ⟨?_, ?_⟩
  · obtain ⟨t, h, hp⟩ := of_ran (show ran { placed 0x6000 with st := 1 }
      (fun t => t.result == some .completed && t.alert) = true by decide +kernel)
    exact ⟨t, h, by simpa using hp⟩
  · obtain ⟨t, h, hp⟩ := of_ran (show ran { placed 0x00EE with st := 1 } (fun t => t.result != some .completed) = true by
      decide +kernel)
    exact ⟨t, h, by simpa using hp⟩

theorem witness_KeyRefresh :
    (placed 0x6000).fault = none ∧ (placed 0x00EE).fault = none ∧
    (∃ t, step (placed 0x6000) = .next t ∧ t.result = some .completed) ∧
    (∃ t, step (placed 0x00EE) = .next t ∧ t.result ≠ some .completed) := by
  refine ⟨by decide, by decide, ?_, ?_⟩
  · obtain ⟨t, h, hp⟩ := of_ran (show ran (placed 0x6000) (fun t => t.result == some .completed) = true by
      decide +kernel)
    exact ⟨t, h, by simpa using hp⟩
  · obtain ⟨t, h, hp⟩ := of_ran (show ran (placed 0x00EE) (fun t => t.result != some .completed) = true by
      decide +kernel)
    exact ⟨t, h, by simpa using hp⟩

theorem witness_DrawFlagIsOnlyAnOutput : ∃ t, step (placed 0xD011) = .next t ∧ t.drawFlag = true := by
  obtain ⟨t, h, hp⟩ := of_ran (show ran (placed 0xD011) (fun t => t.drawFlag) = true by decide +kernel)
  exact ⟨t, h, hp⟩

/-- A stack that differs in its one stale slot, and a Call that fills it. -/
theorem witness_StaleSlotsUnread :
    ((Vector.replicate 16 0 : Vector Word 16).set 15 7) ≠ Vector.replicate 16 0 ∧
    (∀ j (h : j < 16), j < ({ State.reset with sp := 15 } : State).sp.val →
      ((Vector.replicate 16 0 : Vector Word 16).set 15 7)[j] = ({ State.reset with sp := 15 } : State).stack[j]) ∧
    ∃ t, exec (.call 0x300) { State.reset with sp := 15 } = .next t ∧ t.sp.val = 16 := by
  refine ⟨by decide +kernel, by decide +kernel, ?_⟩
  obtain ⟨t, h, hp⟩ := of_does (show does (.call 0x300) { State.reset with sp := 15 } (fun t => t.sp.val == 16) = true by
    decide +kernel)
  exact ⟨t, h, by simpa using hp⟩

theorem witness_WhatEachInstructionWrites :
    writesReg .clearScreen 15 = false ∧ writesReg (.fillRegisters 14) 15 = false ∧ writesIdx (.bcd 0) = false ∧
    bytesStored (.draw 0 0 1) = 0 ∧ writesStack (.jump 0) = false ∧ writesDt (.setSound 0) = false ∧
    writesSt (.setDelay 0) = false ∧ writesScreen (.bcd 0) = false ∧
    ({ State.reset with idx := 0x300 } : State).dataAddr 0 + bytesStored (.bcd 0) ≤ 0x303 := by decide

theorem reset_inv : State.reset.Inv :=
  ⟨by decide, by decide, by decide, fun i _ hi => absurd hi (by simp [State.reset, State.resetOf])⟩

/-- The invariant at its boundaries: the last word of memory, the last byte for idx. -/
theorem witness_StepKeepsInv :
    State.reset.Inv ∧ ({ State.reset with pc := 0x10FE, idx := 0xFFF } : State).Inv ∧
    ∃ t, step State.reset = .next t :=
  ⟨reset_inv, ⟨by decide, by decide, by decide, fun i _ hi => absurd hi (by simp [State.reset, State.resetOf])⟩,
    step_total _⟩

theorem witness_HostEventsKeepInv : State.reset.Inv := reset_inv

/-- A faulted machine that would fault again, and a step of it. -/
theorem witness_LatchedFaultWouldRecur :
    ({ placed 0x5121 with fault := some (.invalidOpcode 0x5121) } : State).latchRecurs ∧
    ∃ t, step { placed 0x5121 with fault := some (.invalidOpcode 0x5121) } = .next t := by
  refine ⟨?_, step_total _⟩
  intro f hf
  obtain ⟨t, h, hp⟩ := of_ran (show ran { placed 0x5121 with fault := none, inputs := { idle with quit := false } }
    (fun t => t.fault == some (.invalidOpcode 0x5121)) = true by decide +kernel)
  exact ⟨t, h, by rw [← hf]; simpa using hp⟩

/-- Two orders of the same two stores. -/
theorem witness_CanonicalMemoryIsUnique :
    Memory.wf defaultFont (Memory.write defaultFont (Memory.write defaultFont [] 0xFFF 1) 0x000 2) ∧
    Memory.wf defaultFont (Memory.write defaultFont (Memory.write defaultFont [] 0x000 2) 0xFFF 1) ∧
    ∀ a, a < 4096 →
      Memory.read defaultFont (Memory.write defaultFont (Memory.write defaultFont [] 0xFFF 1) 0x000 2) a =
      Memory.read defaultFont (Memory.write defaultFont (Memory.write defaultFont [] 0x000 2) 0xFFF 1) a := by
  refine ⟨by decide +kernel, by decide +kernel, fun a _ => ?_⟩
  rw [show Memory.write defaultFont (Memory.write defaultFont [] 0xFFF 1) 0x000 2 =
    Memory.write defaultFont (Memory.write defaultFont [] 0x000 2) 0xFFF 1 by decide +kernel]

theorem witness_MachineCallEffects :
    State.reset.cfg.machineCallEffect = .fault ∧
    (State.resetOf { defaultConfig with machineCallEffect := .nop }).cfg.machineCallEffect = .nop := by decide

theorem witness_CallPushesItsAddress : ({ State.reset with sp := 15 } : State).sp.val < 16 := by decide

theorem witness_ReturnPopsAndAddsTwo :
    ({ State.reset with sp := 16 } : State).sp.val = 15 + 1 ∧ ({ State.reset with sp := 1 } : State).sp.val = 0 + 1 := by
  decide

theorem witness_StackOverflowFault :
    ({ placed 0x2300 with sp := 16 } : State).fault = none ∧
    ({ placed 0x2300 with sp := 16 } : State).inputs.quit = false ∧
    ({ placed 0x2300 with sp := 16 } : State).fetch = some 0x2300 ∧ decode 0x2300 = .instr (.call 0x300) ∧
    ({ placed 0x2300 with sp := 16 } : State).sp.val = 16 := by decide +kernel

theorem witness_StackUnderflowFault :
    (placed 0x00EE).fault = none ∧ (placed 0x00EE).inputs.quit = false ∧ (placed 0x00EE).fetch = some 0x00EE ∧
    decode 0x00EE = .instr .ret ∧ (placed 0x00EE).sp.val = 0 := by decide +kernel

theorem witness_ReturnResumesAfterCall :
    ∃ t u : State, State.reset.sp.val < 16 ∧ exec (.call 0x300) State.reset = .next t ∧ u.stack = t.stack ∧
      u.sp = t.sp ∧ u.pc = 0x400 := by
  obtain ⟨t, h, -⟩ := exec_total (.call 0x300) State.reset
  exact ⟨t, { t with pc := 0x400 }, by decide, h, rfl, rfl, rfl⟩

theorem witness_SkipsOnValue :
    (({ State.reset with v := regs [(1, 0x55)] } : State).reg 1).toNat = (0x55 : Byte).toNat ∧
    (({ State.reset with v := regs [(1, 0x55)] } : State).reg 1).toNat ≠ (0x54 : Byte).toNat := by decide

theorem witness_SkipsOnRegisters :
    (({ State.reset with v := regs [(1, 7), (2, 7)] } : State).reg 1).toNat =
      (({ State.reset with v := regs [(1, 7), (2, 7)] } : State).reg 2).toNat ∧
    (({ State.reset with v := regs [(1, 7)] } : State).reg 1).toNat ≠
      (({ State.reset with v := regs [(1, 7)] } : State).reg 2).toNat := by decide

/-- Key 15, down and up, and the first number that is no key. -/
theorem witness_SkipsOnKeys :
    (({ State.reset with v := regs [(0, 15)] } : State).reg 0).toNat = 15 ∧ (keysDown [15])[15] = true ∧
    (keysDown [])[15] = false ∧ (({ State.reset with v := regs [(0, 16)] } : State).reg 0).toNat > 15 := by decide

theorem witness_AddImmediate : (15 : RegIx) ≠ 14 := by decide

theorem witness_LoadsAndLogic : (15 : RegIx) ≠ 14 := by decide

/-- x = 15 is in the statement, x ≠ 15 in its clause; the same for the differences and the shifts. -/
theorem witness_AddAssignCarry : (14 : RegIx) ≠ 15 ∧ (0 : RegIx) ≠ 14 ∧ (0 : RegIx) ≠ 15 := by decide

theorem witness_SubtractNoBorrow : (14 : RegIx) ≠ 15 ∧ (0 : RegIx) ≠ 14 ∧ (0 : RegIx) ≠ 15 := by decide

theorem witness_ShiftsByOne : (14 : RegIx) ≠ 15 ∧ (0 : RegIx) ≠ 14 ∧ (0 : RegIx) ≠ 15 := by decide

theorem witness_IndexIncrement :
    State.reset.cfg.idxAddModulus = .carry12 ∧
    (State.resetOf { defaultConfig with idxAddModulus := .literalFFF }).cfg.idxAddModulus = .literalFFF := by decide

theorem witness_BcdStores :
    ({ State.reset with idx := 0xFFD } : State).idx.toNat + 2 ≤ 0xFFF ∧
    ({ State.reset with idx := 0xFFE } : State).idx.toNat ≤ 0xFFF ∧
    ({ State.reset with idx := 0xFFE } : State).idx.toNat ≥ 0xFFE := by decide

theorem witness_DumpStores :
    ({ State.reset with idx := 0xFF0 } : State).idx.toNat + (15 : RegIx).val ≤ 0xFFF ∧
    ({ State.reset with idx := 0xFFF } : State).idx.toNat ≤ 0xFFF ∧
    ({ State.reset with idx := 0xFFF } : State).idx.toNat + (1 : RegIx).val > 0xFFF := by decide

theorem witness_FillLoads :
    ({ State.reset with idx := 0xFFF } : State).idx.toNat + (0 : RegIx).val ≤ 0xFFF ∧ (0 : RegIx) < 1 ∧
    ({ State.reset with idx := 0xFF1 } : State).idx.toNat ≤ 0xFFF ∧
    ({ State.reset with idx := 0xFF1 } : State).idx.toNat + (15 : RegIx).val > 0xFFF := by decide

/-- The registers are lost between the two. -/
theorem witness_FillRestoresDump :
    ∃ t u : State, ({ State.reset with idx := 0xFF0 } : State).idx.toNat + (15 : RegIx).val ≤ 0xFFF ∧
      exec (.dumpRegisters 15) { State.reset with idx := 0xFF0, v := regs [(15, 7)] } = .next t ∧ u.mem = t.mem ∧
      u.idx = t.idx ∧ u.cfg = t.cfg ∧ u.v = regs [] := by
  obtain ⟨t, h, -⟩ := exec_total (.dumpRegisters 15) { State.reset with idx := 0xFF0, v := regs [(15, 7)] }
  exact ⟨t, { t with v := regs [] }, by decide, h, rfl, rfl, rfl, rfl⟩

theorem witness_StoreIsSeenByNextFetch :
    ({ State.reset with idx := 0xFFE } : State).idx.toNat + (1 : RegIx).val ≤ 0xFFF ∧ (0 : RegIx).val < (1 : RegIx).val ∧
    ∃ t, exec (.dumpRegisters 1) { State.reset with idx := 0xFFE } = .next t := by
  obtain ⟨t, h, -⟩ := exec_total (.dumpRegisters 1) { State.reset with idx := 0xFFE }
  exact ⟨by decide, by decide, t, h⟩

/-- No row, one row at the last address, a covered pixel that was on, one row too many. -/
theorem witness_DrawXorsSprite :
    ((0 : Fin 16).val = 0) ∧ ({ State.reset with idx := 0xFFF } : State).idx.toNat + (1 : Fin 16).val - 1 ≤ 0xFFF ∧
    (spriteCovers State.reset 0 0 1 0 0 ∧
      pixel ({ State.reset with screen := lit [(0, 0)] } : State).screen 0 0 = true) ∧
    ¬ spriteCovers State.reset 0 0 1 8 0 ∧
    ((2 : Fin 16).val ≥ 1 ∧ ({ State.reset with idx := 0xFFF } : State).idx.toNat ≤ 0xFFF ∧
      ({ State.reset with idx := 0xFFF } : State).idx.toNat + (2 : Fin 16).val - 1 > 0xFFF) := by
  refine ⟨by decide, by decide, ⟨⟨0, 0, by decide, by decide, by decide, by decide, by decide +kernel⟩, by decide +kernel⟩,
    ?_, by decide⟩
  rintro ⟨row, col, -, hc, hx, -⟩
  rw [show (State.reset.reg 0).toNat = 0 by decide] at hx
  simp at hx
  omega

theorem witness_DrawTwiceRestores :
    ∃ t, exec (.draw 1 2 5) { State.reset with idx := 0x005 } = .next t ∧
      t.reg 1 = ({ State.reset with idx := 0x005 } : State).reg 1 ∧
      t.reg 2 = ({ State.reset with idx := 0x005 } : State).reg 2 ∧
      t.idx = ({ State.reset with idx := 0x005 } : State).idx ∧
      (∀ a, t.memRead a = ({ State.reset with idx := 0x005 } : State).memRead a) ∧
      ({ State.reset with idx := 0x005 } : State).idx.toNat + (5 : Fin 16).val - 1 ≤ 0xFFF := by
  obtain ⟨t, h, hp⟩ := of_does (show does (.draw 1 2 5) { State.reset with idx := 0x005 }
    (fun t => t.reg 1 == 0 && t.reg 2 == 0 && t.idx == 5 && t.mem == [] && t.cfg == defaultConfig) = true by
      decide +kernel)
  simp only [Bool.and_eq_true, beq_iff_eq] at hp
  obtain ⟨⟨⟨⟨h1, h2⟩, h3⟩, h4⟩, h5⟩ := hp
  exact ⟨t, h, h1, h2, h3, fun a => by simp only [State.memRead, h4, h5]; rfl, by decide⟩

/-- No key; key 15 alone; key 0 before others. -/
theorem witness_WaitKeyEffect :
    (∀ k (h : k < 16), State.reset.key[k] = false) ∧
    ((keysDown [15])[15] = true ∧ ∀ j (h : j < 16), j < 15 → (keysDown [15])[j] = false) ∧
    ((keysDown [0, 3])[0] = true) := by decide +kernel

theorem witness_RandMasksInput :
    (∀ x kk, Instr.jump 0x300 ≠ .rand x kk) ∧ ∃ t, exec (.jump 0x300) State.reset = .next t := by
  obtain ⟨t, h, -⟩ := exec_total (.jump 0x300) State.reset
  exact ⟨fun _ _ h => Instr.noConfusion h, t, h⟩

/-- Three idle steps of a waiting machine; and one whose port shows keys 7 and 11 in the first step. -/
theorem witness_WaitKeyWaits :
    let s := (placed 0xF10A).present idle [idle, idle]
    let k := (placed 0xF10A).present { idle with keys := 0x880 } [idle]
    (s.fault = none ∧ s.fetch = some 0xF10A ∧ decode 0xF10A = .instr (.waitKey 1) ∧
      (∀ k (h : k < 16), s.key[k] = false) ∧ 3 ≤ s.script.length + 1 ∧
      ∀ inp ∈ (s.inputs :: s.script).take 3, inp.quit = false ∧ inp.keys = 0) ∧
    (k.fault = none ∧ k.fetch = some 0xF10A ∧ (∀ j (h : j < 16), k.key[j] = false) ∧ k.inputs.quit = false ∧
      k.script = idle :: [] ∧ idle.quit = false ∧ k.inputs.keys.getLsbD 7 = true ∧
      ∀ j, j < 7 → k.inputs.keys.getLsbD j = false) := by decide +kernel

theorem witness_LoadResetsAndCopies :
    (∃ rom : List Byte, rom.length ≤ 3584 ∧ rom.length = 3584) ∧ (∃ rom : List Byte, rom.length > 3584) ∧
    State.reset.frameAck.cfg = State.reset.cfg := by
  have h := fun n => (List.length_replicate : (List.replicate n (1 : Byte)).length = n)
  exact ⟨⟨_, (h 3584).le, h 3584⟩, ⟨_, lt_of_lt_of_eq (Nat.lt_succ_self 3584) (h 3585).symm⟩, State.frameAck_cfg _⟩

theorem witness_FinishedStaysFinished :
    (placed 0x1200).fault = none ∧ (placed 0x1200).finished = true ∧
    ∃ t, Sys2Proof.core.run 1 (placed 0x1200) = .next t := by
  refine ⟨by decide, by decide +kernel, ?_⟩
  obtain ⟨t, h⟩ := step_total (placed 0x1200)
  refine ⟨t, ?_⟩
  simp only [Host.Core.run]
  rw [show Sys2Proof.core.step (placed 0x1200) = .next t from h]

end Sys2Proof.Tests
end

section
/-! The statement of the family 20_memory.md: byte order of the fetch (R42). -/

namespace Sys2Proof.Machine

/-- R42: inside memory the fetch answers the word whose high half is the byte at pc. -/
theorem State.fetch_toNat (s : State) (h : s.pc.toNat ≤ 0xFFE) :
    ∃ w : Word, s.fetch = some w ∧
      w.toNat = (s.memRead s.pc.toNat).toNat * 256 + (s.memRead (s.pc.toNat + 1)).toNat :=
  ⟨_, s.fetch_in h, wordOfBytes_toNat _ _⟩

/-- Settles O7: the fetch joins the two bytes high half first, and the spec's worked example of R42 decodes so. -/
theorem fetchIsBigEndian : Obligations.FetchIsBigEndian :=
  ⟨State.fetch_toNat, by decide⟩

end Sys2Proof.Machine
end

section
/-! The statement of the family 30_encoding.md: the algorithm and the table of R63 decode alike. A row whose mask keeps
the leading nibble can match only words of its own leading nibble, so each case of `decode` is compared with the few
rows of that nibble. -/

namespace Sys2Proof

/-! ### First-match decoding over any list of rows -/

/-- First-match decoding from the rows of a list (R63). -/
def decodeAmong (rows : List Row) (w : Word) : Decoded :=
  match rows.find? (fun r => w &&& r.mask == r.pattern) with
  | some r => .instr (r.build w)
  | none => .unrecognized w

theorem decodeByRows_eq_decodeAmong (w : Word) : decodeByRows w = decodeAmong opcodeRows w := rfl

@[simp] theorem decodeAmong_nil (w : Word) : decodeAmong [] w = .unrecognized w := rfl

@[simp] theorem decodeAmong_cons (r : Row) (rows : List Row) (w : Word) :
    decodeAmong (r :: rows) w = if w &&& r.mask = r.pattern then .instr (r.build w) else decodeAmong rows w := by
  by_cases h : w &&& r.mask = r.pattern <;> simp [decodeAmong, h]

/-- Rows that do not match the word may be left out. -/
theorem decodeAmong_filter {rows : List Row} {w : Word} (keep : Row → Bool)
    (h : ∀ r ∈ rows, w &&& r.mask = r.pattern → keep r = true) :
    decodeAmong (rows.filter keep) w = decodeAmong rows w := by
  induction rows with
  | nil => rfl
  | cons r rows ih =>
    have ih := ih fun r' hr' => h r' (List.mem_cons_of_mem r hr')
    cases hk : keep r with
    | true => rw [List.filter_cons_of_pos hk, decodeAmong_cons, decodeAmong_cons, ih]
    | false =>
      have hr : w &&& r.mask ≠ r.pattern := fun hm => by simp [h r List.mem_cons_self hm] at hk
      rw [List.filter_cons_of_neg (by simp [hk]), decodeAmong_cons, if_neg hr, ih]

/-! ### The rows of one leading nibble -/

theorem opOf_and {w m : Word} (hm : m &&& 0xF000 = 0xF000) : opOf (w &&& m) = opOf w := by
  have h : ((w &&& m) &&& 0xF000).toNat = (w &&& 0xF000).toNat := by rw [BitVec.and_assoc, hm]
  rw [and_F000, and_F000] at h
  apply BitVec.eq_of_toNat_eq
  rw [opOf_toNat, opOf_toNat]; omega

/-- The rows of R63 whose pattern has the leading nibble `op`. -/
def rowsOfOp (op : Nat) : List Row := opcodeRows.filter (fun r => (opOf r.pattern).toNat == op)

/-- No row of the table ignores a bit of the leading nibble. -/
theorem opcodeRows_keep_op : ∀ r ∈ opcodeRows, r.mask &&& 0xF000 = 0xF000 := by decide

theorem decodeByRows_eq_rowsOfOp (w : Word) : decodeByRows w = decodeAmong (rowsOfOp (opOf w).toNat) w := by
  rw [decodeByRows_eq_decodeAmong]
  refine (decodeAmong_filter _ fun r hr hw => ?_).symm
  rw [← hw, opOf_and (opcodeRows_keep_op r hr), beq_self_eq_true]

/-! ### The masks of R63, through the fields they keep -/

theorem and_F000_eq_iff (w p : Word) : w &&& 0xF000#16 = p ↔ (opOf w).toNat * 0x1000 = p.toNat := by
  rw [← BitVec.toNat_inj, opOf_toNat, ← and_F000]; rfl

theorem and_F00F_eq_iff (w p : Word) : w &&& 0xF00F#16 = p ↔ (nOf w).val + (opOf w).toNat * 0x1000 = p.toNat := by
  rw [← BitVec.toNat_inj, opOf_toNat, nOf_val, Nat.add_comm, ← and_F00F]; rfl

theorem and_F0FF_eq_iff (w p : Word) :
    w &&& 0xF0FF#16 = p ↔ (kkOf w).toNat + (opOf w).toNat * 0x1000 = p.toNat := by
  rw [← BitVec.toNat_inj, opOf_toNat, kkOf_toNat, Nat.add_comm, ← and_F0FF]; rfl

theorem and_FFFF_eq_iff (w p : Word) :
    w &&& 0xFFFF#16 = p ↔ (nnnOf w).toNat + (opOf w).toNat * 0x1000 = p.toNat := by
  rw [show w &&& 0xFFFF#16 = w from BitVec.and_allOnes, ← BitVec.toNat_inj, opOf_toNat, nnnOf_toNat, Nat.mod_add_div']

/-! ### Each leading nibble: its case of `decode` against its rows -/

/-- A nibble whose one row leaves every other bit free. -/
theorem decodeAmong_free {op : Nat} {w p : Word} {build : Word → Instr} (hop : (opOf w).toNat = op)
    (hrows : rowsOfOp op = [⟨p, 0xF000, build⟩]) (hp : p.toNat = op * 0x1000) :
    decodeAmong (rowsOfOp op) w = .instr (build w) := by
  have hm : w &&& 0xF000 = p := (and_F000_eq_iff w p).2 (by rw [hop, hp])
  simp only [hrows, decodeAmong_cons, hm, if_true]

/-- A nibble whose one row asks for a trailing nibble 0. -/
theorem decodeAmong_zero_n {op : Nat} {w p : Word} {build : Word → Instr} (hop : (opOf w).toNat = op)
    (hrows : rowsOfOp op = [⟨p, 0xF00F, build⟩]) (hp : p.toNat = op * 0x1000) :
    decodeAmong (rowsOfOp op) w = if (nOf w).val = 0 then .instr (build w) else .unrecognized w := by
  have hm : w &&& 0xF00F = p ↔ (nOf w).val = 0 := (and_F00F_eq_iff w p).trans (by rw [hop, hp]; omega)
  simp only [hrows, decodeAmong_cons, decodeAmong_nil, hm]

/-- Group 0x0: ClearScreen and Return are tested before MachineCall. -/
theorem decodeAmong_rowsOfOp_0 {w : Word} (hop : (opOf w).toNat = 0x0) :
    decodeAmong (rowsOfOp 0x0) w =
      if nnnOf w = 0x0E0 then .instr .clearScreen else if nnnOf w = 0x0EE then .instr .ret
      else .instr (.machineCall (nnnOf w)) := by
  rw [show rowsOfOp 0x0 = rows0to7.take 3 from rfl]
  simp [rows0to7, and_FFFF_eq_iff, and_F000_eq_iff, hop, (BitVec.toNat_inj (x := nnnOf w)).symm]

/-- Group 0x8: under its leading nibble a row's mask leaves the trailing nibble, the selector of `decode8`. -/
theorem decodeAmong_rowsOfOp_8 {w : Word} (hop : (opOf w).toNat = 0x8) :
    decodeAmong (rowsOfOp 0x8) w = decode8 w := by
  rw [show rowsOfOp 0x8 = rows8toD.take 9 from rfl, decode8]
  split <;> simp_all [-Fin.val_eq_zero_iff, rows8toD, and_F00F_eq_iff]

/-- Group 0xE: under its leading nibble a row's mask leaves the trailing byte, the selector of `decodeE`. -/
theorem decodeAmong_rowsOfOp_E {w : Word} (hop : (opOf w).toNat = 0xE) :
    decodeAmong (rowsOfOp 0xE) w = decodeE w := by
  rw [show rowsOfOp 0xE = rowsEtoF.take 2 from rfl, decodeE]
  split <;> simp_all [rowsEtoF, and_F0FF_eq_iff]

/-- Group 0xF: under its leading nibble a row's mask leaves the trailing byte, the selector of `decodeF`. -/
theorem decodeAmong_rowsOfOp_F {w : Word} (hop : (opOf w).toNat = 0xF) :
    decodeAmong (rowsOfOp 0xF) w = decodeF w := by
  rw [show rowsOfOp 0xF = rowsEtoF.drop 2 from rfl, decodeF]
  split <;> simp_all [rowsEtoF, and_F0FF_eq_iff]

/-- R63: first-match decoding answers as the algorithm does, nibble by nibble. -/
theorem decodeByRows_eq_decode (w : Word) : decodeByRows w = decode w := by
  rw [decodeByRows_eq_rowsOfOp, decode]
  have hlt : (opOf w).toNat < 16 := (opOf w).isLt
  generalize hop : (opOf w).toNat = op at hlt
  match op with
  | 0x0 => exact decodeAmong_rowsOfOp_0 hop
  | 0x5 | 0x9 => exact decodeAmong_zero_n hop rfl rfl
  | 0x8 => exact decodeAmong_rowsOfOp_8 hop
  | 0xE => exact decodeAmong_rowsOfOp_E hop
  | 0xF => exact decodeAmong_rowsOfOp_F hop
  | 0x1 | 0x2 | 0x3 | 0x4 | 0x6 | 0x7 | 0xA | 0xB | 0xC | 0xD => exact decodeAmong_free hop rfl rfl
  | _ + 16 => omega

/-! ### Where two rows overlap -/

/-- Two rows that both match a word agree on the bits that both of them fix. -/
theorem patterns_agree {w m m' p p' : Word} (h : w &&& m = p) (h' : w &&& m' = p') : p &&& m' = p' &&& m := by
  rw [← h, ← h', BitVec.and_assoc, BitVec.and_assoc, BitVec.and_comm m]

/-- Outside `op = 0`, any two rows of the table differ in a bit that both of them fix. -/
theorem opcodeRows_conflict : opcodeRows.Pairwise fun r r' =>
    r.pattern &&& r'.mask = r'.pattern &&& r.mask → (opOf r.pattern).toNat = 0 := by decide

/-- R63: two rows of the table overlap only in `op = 0`. -/
theorem opcodeRows_overlap : opcodeRows.Pairwise fun r r' =>
    ∀ w : Word, w &&& r.mask = r.pattern → w &&& r'.mask = r'.pattern → (opOf w).toNat = 0 := by
  refine opcodeRows_conflict.imp_of_mem fun {r r'} hr _ hrr w h h' => ?_
  rw [← opOf_and (opcodeRows_keep_op r hr), h]
  exact hrr (patterns_agree h h')

/-- Settles O3: each case of the algorithm is what the rows of its leading nibble answer, and two rows that agree on
the bits both of them fix have the leading nibble 0. -/
theorem algorithmAgreesWithTable : Obligations.AlgorithmAgreesWithTable :=
  ⟨fun w => (decodeByRows_eq_decode w).symm, opcodeRows_overlap⟩

end Sys2Proof
end

section
/-! The statement of the family 40_cycle.md: the key refresh (R89). What a step leaves in the latches follows from the
five cases of a step; that `keys_in` shows nowhere else follows from running the step beside one in which the port
shows other keys. -/

namespace Sys2Proof.Machine

variable {s t u : State} {i : Instr}

/-! ### What a step leaves in the key latches -/

theorem State.endStep_key (u : State) :
    (u.endStep.result = some .completed ∧ u.endStep.key = latchOf u.inputs.keys) ∨
    (u.endStep.result ≠ some .completed ∧ u.endStep.key = u.key) := by
  cases hf : u.fault with
  | none => rw [u.endStep_none hf]; exact .inl ⟨u.completed_result, u.completed_key⟩
  | some f => rw [u.endStep_some hf]; exact .inr ⟨by simp, u.faulted_key f⟩

/-- R89 with R81, R82 and R86: only a completed step refreshes the latches. -/
theorem step_key (h : step s = .next t) :
    (t.result = some .completed ∧ t.key = latchOf s.inputs.keys) ∨
    (t.result ≠ some .completed ∧ t.key = s.key) := by
  obtain ⟨f, -, rfl⟩ | ⟨-, -, rfl⟩ | ⟨-, -, rfl⟩ | ⟨-, w, -, -, rfl⟩ | ⟨-, w, i, u, -, -, -, ho, rfl⟩ := step_cases h
  · exact .inr ⟨by simp, rfl⟩
  · exact .inr ⟨by simp, rfl⟩
  · exact .inr ⟨by simp, rfl⟩
  · exact .inr ⟨by simp, rfl⟩
  · rw [← ho.inputs, ← ho.key]; exact u.endStep_key

/-! ### The same step while `keys_in` shows other keys -/

/-- The machine with other values on `keys_in` for the coming step. -/
def State.showKeys (s : State) (keys : BitVec 16) : State := { s with inputs := { s.inputs with keys := keys } }

theorem exec_sameOutside (h : exec i s = .next t) : s.SameOutside t := by
  obtain ⟨t', ht', ho⟩ := exec_total i s
  rw [h] at ht'
  cases ht'
  exact ho

theorem State.agree_showKeys (s : State) (keys : BitVec 16) : s.Agree (s.showKeys keys) := by
  constructor <;> rfl

/-- No instruction reads `keys_in`: it does the same whatever the port shows. -/
theorem exec_showKeys (keys : BitVec 16) (h : exec i s = .next u) :
    exec i (s.showKeys keys) = .next (u.showKeys keys) := by
  obtain ⟨u', hu', hagree, hdt, hst, hdraw, hfault⟩ :=
    exec_agree (s.agree_showKeys keys) (fun _ _ => rfl) (fun _ _ _ => rfl) h
  have ho := exec_sameOutside h
  have ho' := exec_sameOutside hu'
  have hdrawFlag : u'.drawFlag = u.drawFlag := by
    rcases hdraw with ⟨hd, hd'⟩ | ⟨hd, hd'⟩
    · rw [hd, hd']; rfl
    · rw [hd, hd']
  have heq : u' = u.showKeys keys := by
    rw [hagree.eq, hdt.same, hst.same, hdrawFlag, hfault.same, ho'.alert, ho'.result, ho'.inputs, ho'.script, ho'.draws]
    simp only [State.showKeys, ← ho.alert, ← ho.result, ← ho.inputs, ← ho.script, ← ho.draws]
  rw [hu', heq]

theorem State.endStep_showKeys (u : State) (keys : BitVec 16) :
    (u.showKeys keys).endStep = { u.endStep with key := (u.showKeys keys).endStep.key } := by
  cases hf : u.fault with
  | none => rw [u.endStep_none hf, (u.showKeys keys).endStep_none hf]; rfl
  | some f => rw [u.endStep_some hf, (u.showKeys keys).endStep_some hf]; rfl

/-- R89: what `keys_in` shows during a step of an unfaulted machine shows in the latches only. -/
theorem step_showKeys (keys : BitVec 16) (hs : s.fault = none) (h : step s = .next t) :
    ∃ t', step (s.showKeys keys) = .next t' ∧ t' = { t with key := t'.key } := by
  obtain ⟨f, hf, -⟩ | ⟨-, hq, rfl⟩ | ⟨hr, hf, rfl⟩ | ⟨hr, w, hf, hd, rfl⟩ | ⟨hr, w, i, u, hf, hd, he, -, rfl⟩ :=
    step_cases h
  · simp [hs] at hf
  · exact ⟨_, step_quit hs hq, rfl⟩
  · exact ⟨_, step_fetch_out hr hf, rfl⟩
  · exact ⟨_, step_invalid hr hf hd, rfl⟩
  · exact ⟨_, step_instr hr hf hd (exec_showKeys keys he), u.endStep_showKeys keys⟩

/-- Settles O19: the refresh is part of the end of a completed step and of no other, and the instruction before it
does not read the port. -/
theorem keyRefresh : Obligations.KeyRefresh := by
  intro s t hs h
  refine ⟨fun hc k hk => ?_, fun hc => ?_, fun keys => step_showKeys keys hs h⟩
  · obtain ⟨-, hkey⟩ | ⟨hne, -⟩ := step_key h
    · simp only [hkey, latchOf_getElem]
    · exact absurd hc hne
  · obtain ⟨hc', -⟩ | ⟨-, hkey⟩ := step_key h
    · exact absurd hc' hc
    · exact hkey

end Sys2Proof.Machine
end

section
/-! The statement of the family 43_alu.md: Add wraps at 8 bits and touches no flag (R123). -/

namespace Sys2Proof.Machine

theorem exec_add (x : RegIx) (kk : Byte) (s : State) :
    exec (.add x kk) s = .next (s.setReg x (addBytes (s.reg x) kk)).advance := rfl

theorem State.reg_setReg_of_ne (s : State) {x r : RegIx} (h : r ≠ x) (b : Byte) : (s.setReg x b).reg r = s.reg r := by
  rw [s.reg_setReg, if_neg h]

/-- Settles O38: Add is one register write of the wrapped sum and no flag write, so the rule of a register write gives
the sum in V[x] and every other register as before. -/
theorem addImmediate : Obligations.AddImmediate := by
  intro x kk s
  refine ⟨_, exec_add x kk s, rfl, rfl, ?sum, fun r hr => ?others⟩
  case sum => rw [State.advance_reg, State.reg_setReg_same, addBytes_toNat]
  case others => rw [State.advance_reg, s.reg_setReg_of_ne hr]

end Sys2Proof.Machine
end

section
/-! The statement of the family 45_display.md: ClearScreen blanks every pixel and writes no flag (R150). -/

namespace Sys2Proof.Machine

/-- ClearScreen moves on, blanks the screen and sets draw_flag, whatever the screen showed. -/
theorem exec_clearScreen (s : State) :
    exec .clearScreen s = .next { s.advance with screen := Vector.replicate 32 0, drawFlag := true } := rfl

@[simp] theorem pixel_blank (px : Fin 64) (py : Fin 32) : pixel (Vector.replicate 32 0) px py = false := by
  rw [pixel, Vector.getElem_replicate]
  exact BitVec.getLsbD_zero

/-- Settles O50: the next state is written out by `exec_clearScreen`, and each of its pixels is a bit of a row of
zeros. -/
theorem clearScreenBlanks : Obligations.ClearScreenBlanks := by
  intro s
  refine ⟨_, exec_clearScreen s, ?frame, fun px py => ?blank⟩
  case frame => rfl
  case blank => exact pixel_blank px py

end Sys2Proof.Machine
end

section
/-! The statements of the family 'other' about the codec (30_encoding.md section 3): encoding and decoding are inverse
to one another but for the loose shift words (R66, R67), and which words are unrecognized (R65). -/

namespace Sys2Proof

/-! ### From an instruction to its word and back -/

/-- R67: the fields of an encoded word are the operands, whichever the format, so its nibble's case of `decode` reads
the instruction back; only in group 0x0 two words are taken by ClearScreen and Return. -/
theorem decode_encode (i : Instr) (h : i.wellFormed = true) : decode (encode i) = .instr i := by
  cases i
  case clearScreen | ret => decide
  case machineCall nnn =>
    obtain ⟨hcls, hret⟩ : nnn ≠ 0x0E0#12 ∧ nnn ≠ 0x0EE#12 := by simpa [Instr.wellFormed] using h
    simp [encode, decode, opOf_encA, nnnOf_encA, hcls, hret]
  case jump | call | setIdx | jumpTo => simp [encode, decode, opOf_encA, nnnOf_encA]
  case skipIfEqVal | skipIfNotEqVal | setRegister | add | rand =>
    simp [encode, decode, opOf_encI, xOf_encI, kkOf_encI]
  case skipIfPressed | skipIfNotPressed => simp [encode, decode, decodeE, opOf_encI, xOf_encI, kkOf_encI]
  case storeDelay | waitKey | setDelay | setSound | incrementIdx | newSprite | bcd | dumpRegisters | fillRegisters =>
    simp [encode, decode, decodeF, opOf_encI, xOf_encI, kkOf_encI]
  case skipIfMatchReg | skipIfMismatchReg | draw => simp [encode, decode, opOf_encR, xOf_encR, yOf_encR, nOf_encR]
  case assign | or | and | xor | addAssign | subAssign | shiftRight | flippedSubAssign | shiftLeft =>
    simp [encode, decode, decode8, opOf_encR, xOf_encR, yOf_encR, nOf_encR]

/-- Settles O1: constructor by constructor, in the groups of the three formats. -/
theorem decodeOfEncode : Obligations.DecodeOfEncode := decode_encode

/-! ### From a word to its instruction and back -/

theorem encA_nnnOf {w : Word} {op : Nat} (hop : (opOf w).toNat = op) : encA op (nnnOf w) = w := by
  have := w.isLt
  rw [opOf_toNat] at hop
  apply BitVec.eq_of_toNat_eq
  rw [encA_toNat (by omega), nnnOf_toNat]; omega

theorem encI_fields {w : Word} {op : Nat} {kk : Byte} (hop : (opOf w).toNat = op) (hkk : (kkOf w).toNat = kk.toNat) :
    encI op (xOf w) kk = w := by
  have := w.isLt
  rw [opOf_toNat] at hop
  rw [kkOf_toNat] at hkk
  apply BitVec.eq_of_toNat_eq
  rw [encI_toNat (by omega), xOf_val, ← hkk]; omega

theorem encR_fields {w : Word} {op : Nat} {n : Fin 16} (hop : (opOf w).toNat = op) (hn : (nOf w).val = n.val) :
    encR op (xOf w) (yOf w) n = w := by
  have := w.isLt
  rw [opOf_toNat] at hop
  rw [nOf_val] at hn
  apply BitVec.eq_of_toNat_eq
  rw [encR_toNat (by omega), xOf_val, yOf_val, ← hn]; omega

/-- The encoding of a shift word has nibble 2 cleared, whatever it was (R66). -/
theorem encR_shift {w : Word} {n : Fin 16} (hop : (opOf w).toNat = 8) (hn : (nOf w).val = n.val) :
    encR 8 (xOf w) 0 n = w &&& 0xFF0F := by
  have := w.isLt
  rw [opOf_toNat] at hop
  rw [nOf_val] at hn
  apply BitVec.eq_of_toNat_eq
  rw [encR_toNat (by omega), and_FF0F, xOf_val, ← hn, Fin.val_zero]; omega

/-- A shift word's canonical word has nibble 2 cleared, loose or not. -/
theorem canonicalWord_shift {w : Word} (hop : (opOf w).toNat = 8) (hn : (nOf w).val = 6 ∨ (nOf w).val = 14) :
    canonicalWord w = w &&& 0xFF0F := by
  unfold canonicalWord
  split
  · rfl
  · next hloose =>
    have hop' : opOf w = 8 := BitVec.eq_of_toNat_eq hop
    have hy : (yOf w).val = 0 := by simpa [isLooseShift, hop', hn] using hloose
    rw [yOf_val] at hy
    rw [opOf_toNat] at hop
    apply BitVec.eq_of_toNat_eq
    rw [and_FF0F]; omega

/-- A word of group 8 that is no shift is its own canonical word. -/
theorem canonicalWord_of_n {w : Word} (h6 : (nOf w).val ≠ 6) (h14 : (nOf w).val ≠ 14) : canonicalWord w = w := by
  simp [canonicalWord, isLooseShift, h6, h14]

/-- Group 8: the encoding has the nibble 2 of the word but for the two shifts. -/
theorem encodeDecoded_decode8 {w : Word} (hop : (opOf w).toNat = 8) : encodeDecoded (decode8 w) = canonicalWord w := by
  have hlt : (nOf w).val < 16 := (nOf w).isLt
  unfold decode8
  generalize hn : (nOf w).val = n at hlt
  match n with
  | 0x6 => rw [canonicalWord_shift hop (.inl hn)]; exact encR_shift hop hn
  | 0xE => rw [canonicalWord_shift hop (.inr hn)]; exact encR_shift hop hn
  | 0x0 | 0x1 | 0x2 | 0x3 | 0x4 | 0x5 | 0x7 => rw [canonicalWord_of_n (by omega) (by omega)]; exact encR_fields hop hn
  | 0x8 | 0x9 | 0xA | 0xB | 0xC | 0xD | 0xF => exact (canonicalWord_of_n (w := w) (by omega) (by omega)).symm
  | _ + 16 => omega

/-- Group 0: of the words that are no MachineCall each has its one instruction. -/
theorem encodeDecoded_group0 {w : Word} (hop : (opOf w).toNat = 0) :
    encodeDecoded (if nnnOf w = 0x0E0 then .instr .clearScreen else if nnnOf w = 0x0EE then .instr .ret
      else .instr (.machineCall (nnnOf w))) = w := by
  have hw : encA 0 (nnnOf w) = w := encA_nnnOf hop
  split
  · next hcls =>
    rw [hcls] at hw
    exact hw
  · split
    · next hret =>
      rw [hret] at hw
      exact hw
    · exact hw

/-- A nibble whose one instruction asks for a trailing nibble 0. -/
theorem encodeDecoded_zero_n {w : Word} {op : Nat} {i : Instr} (hop : (opOf w).toNat = op)
    (hi : encode i = encR op (xOf w) (yOf w) 0) :
    encodeDecoded (if (nOf w).val = 0 then .instr i else .unrecognized w) = w := by
  split
  · next hn => exact hi.trans (encR_fields hop hn)
  · rfl

/-- Group 0xE: the selector byte is the one the word has. -/
theorem encodeDecoded_decodeE {w : Word} (hop : (opOf w).toNat = 0xE) : encodeDecoded (decodeE w) = w := by
  unfold decodeE
  split
  case h_3 => rfl
  all_goals next hkk => exact encI_fields hop hkk

/-- Group 0xF: the selector byte is the one the word has. -/
theorem encodeDecoded_decodeF {w : Word} (hop : (opOf w).toNat = 0xF) : encodeDecoded (decodeF w) = w := by
  unfold decodeF
  split
  case h_10 => rfl
  all_goals next hkk => exact encI_fields hop hkk

/-- R67, the other direction: `encode` gives the word back, but for a loose shift word, whose nibble 2 it clears. -/
theorem encodeDecoded_decode (w : Word) : encodeDecoded (decode w) = canonicalWord w := by
  have hlt : (opOf w).toNat < 16 := (opOf w).isLt
  by_cases h8 : (opOf w).toNat = 8
  · simp only [decode, h8]
    exact encodeDecoded_decode8 h8
  rw [Laws.CanonicalWord.loose_of_op h8, decode]
  generalize hop : (opOf w).toNat = op at hlt h8
  match op with
  | 0x0 => exact encodeDecoded_group0 hop
  | 0x1 | 0x2 | 0xA | 0xB => exact encA_nnnOf hop
  | 0x3 | 0x4 | 0x6 | 0x7 | 0xC => exact encI_fields hop rfl
  | 0x5 | 0x9 => exact encodeDecoded_zero_n hop rfl
  | 0xD => exact encR_fields hop rfl
  | 0xE => exact encodeDecoded_decodeE hop
  | 0xF => exact encodeDecoded_decodeF hop
  | 0x8 => exact absurd rfl h8
  | _ + 16 => omega

/-- R67: the two instructions that are not representable. -/
theorem wellFormed_eq_false {i : Instr} (h : i.wellFormed = false) : i = .machineCall 0x0E0 ∨ i = .machineCall 0x0EE := by
  cases i
  case machineCall nnn =>
    have : nnn ≠ 0x0E0 → nnn = 0x0EE := by simpa [Instr.wellFormed] using h
    simpa using Decidable.or_iff_not_imp_left.2 this
  all_goals cases h

/-- Settles O2: by leading nibble, each group's encoding puts the fields it read back in their places. -/
theorem encodeOfDecode : Obligations.EncodeOfDecode := by
  refine ⟨encodeDecoded_decode, fun i hi => ?_⟩
  obtain rfl | rfl := wellFormed_eq_false hi <;> decide

/-! ### Unrecognized words, ignored bits -/

theorem decode8_unrecognized (w : Word) :
    decode8 w = .unrecognized w ↔ (nOf w).val ∈ [0x8, 0x9, 0xA, 0xB, 0xC, 0xD, 0xF] := by
  have hlt : (nOf w).val < 16 := (nOf w).isLt
  unfold decode8
  generalize (nOf w).val = n at hlt
  match n with
  | 0x0 | 0x1 | 0x2 | 0x3 | 0x4 | 0x5 | 0x6 | 0x7 | 0xE => simp
  | 0x8 | 0x9 | 0xA | 0xB | 0xC | 0xD | 0xF => simp
  | _ + 16 => omega

theorem decodeE_unrecognized (w : Word) : decodeE w = .unrecognized w ↔ (kkOf w).toNat ∉ [0x9E, 0xA1] := by
  unfold decodeE
  split <;> simp_all

theorem decodeF_unrecognized (w : Word) :
    decodeF w = .unrecognized w ↔ (kkOf w).toNat ∉ [0x07, 0x0A, 0x15, 0x18, 0x1E, 0x29, 0x33, 0x55, 0x65] := by
  unfold decodeF
  split <;> simp_all

/-- R65: the five sets, by leading nibble; a nibble outside 5, 8, 9, 0xE and 0xF has no unrecognized word. -/
theorem decode_unrecognized_iff (w : Word) :
    decode w = .unrecognized w ↔
      ((opOf w).toNat = 5 ∧ (nOf w).val ≠ 0) ∨ ((opOf w).toNat = 9 ∧ (nOf w).val ≠ 0) ∨
      ((opOf w).toNat = 8 ∧ (nOf w).val ∈ [0x8, 0x9, 0xA, 0xB, 0xC, 0xD, 0xF]) ∨
      ((opOf w).toNat = 0xE ∧ (kkOf w).toNat ∉ [0x9E, 0xA1]) ∨
      ((opOf w).toNat = 0xF ∧
        (kkOf w).toNat ∉ [0x07, 0x0A, 0x15, 0x18, 0x1E, 0x29, 0x33, 0x55, 0x65]) := by
  rw [← decode8_unrecognized, ← decodeE_unrecognized, ← decodeF_unrecognized]
  have hlt : (opOf w).toNat < 16 := (opOf w).isLt
  unfold decode
  generalize (opOf w).toNat = op at hlt
  match op with
  | 0x0 => split_ifs <;> simp
  | 0x5 | 0x9 => by_cases hn : (nOf w).val = 0 <;> simp [-Fin.val_eq_zero_iff, hn]
  | 0x8 | 0xE | 0xF => simp
  | 0x1 | 0x2 | 0x3 | 0x4 | 0x6 | 0x7 | 0xA | 0xB | 0xC | 0xD => simp
  | _ + 16 => omega

/-- Settles O4: the five sets are those of the leading nibbles with a selector, and the sentinel carries its word. -/
theorem unrecognizedWords : Obligations.UnrecognizedWords :=
  fun w => ⟨decode_unrecognized_iff w, fun _ => Machine.decode_unrecognized⟩

/-! ### Which words share their instruction -/

/-- The canonical word of a word is the word itself, unless the word is one of a shift. -/
theorem canonicalWord_cases (w : Word) :
    canonicalWord w = w ∨
      (canonicalWord w = w &&& 0xFF0F ∧
        (decode w = .instr (.shiftRight (xOf w)) ∨ decode w = .instr (.shiftLeft (xOf w)))) := by
  unfold canonicalWord
  split
  case isFalse => exact .inl rfl
  case isTrue hloose =>
    obtain ⟨⟨hop, hn⟩, -⟩ : (opOf w = 8 ∧ ((nOf w).val = 6 ∨ (nOf w).val = 14)) ∧ (yOf w).val ≠ 0 := by
      simpa [isLooseShift] using hloose
    refine .inr ⟨rfl, ?_⟩
    obtain h | h := hn <;> simp [decode, decode8, hop, h]

/-- Two words with one instruction have one canonical word. -/
theorem canonicalWord_eq_of_decode {w w' : Word} {i : Instr} (h : decode w = .instr i) (h' : decode w' = .instr i) :
    canonicalWord w = canonicalWord w' := by
  rw [← encodeDecoded_decode w, ← encodeDecoded_decode w', h, h']

/-- Settles O5: two words of one instruction have one canonical word, and a word is its own canonical word unless it
is one of the two shifts, where nibble 2 is cleared. -/
theorem onlyShiftsIgnoreBits : Obligations.OnlyShiftsIgnoreBits := by
  refine ⟨fun x y => ⟨?_, ?_⟩, fun w w' i hw hw' hne => ?_⟩
  · simp [decode, decode8, opOf_encR, xOf_encR, nOf_encR]
  · simp [decode, decode8, opOf_encR, xOf_encR, nOf_encR]
  · have hcan := canonicalWord_eq_of_decode hw hw'
    have hmask : ∀ v : Word, v &&& 0xFF0F &&& 0xFF0F = v &&& 0xFF0F := fun v => by rw [BitVec.and_assoc, BitVec.and_self]
    obtain h | ⟨h, hshift⟩ := canonicalWord_cases w <;> obtain h' | ⟨h', hshift'⟩ := canonicalWord_cases w'
    · exact absurd (by rw [← h, hcan, h']) hne
    · refine ⟨xOf w', by simpa [hw'] using hshift', ?_⟩
      rw [← h, hcan, h', hmask]
    · refine ⟨xOf w, by simpa [hw] using hshift, ?_⟩
      rw [← h', ← hcan, h, hmask]
    · exact ⟨xOf w, by simpa [hw] using hshift, by rw [← h, hcan, h']⟩

/-- Settles O6: the eight words of the vectors, bit by bit. -/
theorem sampleWordsDecode : Obligations.SampleWordsDecode := by
  unfold Obligations.SampleWordsDecode
  decide

end Sys2Proof
end

section
/-! What an instruction does, said once. First its equation, one for each condition the meaning tests; then the few
kinds of effect the 35 instructions have, and the inversion of `exec` into them: a fault raised by the table `faultOf`
and nothing else, or no fault and one of the kinds. The statements about all instructions follow from the inversion, those
about single ones from the equations. -/

namespace Sys2Proof.Machine

variable {s t : State} {i : Instr}

/-! ### Equations, for each condition an instruction tests -/

theorem exec_machineCall_fault (nnn : Addr) (h : s.cfg.machineCallEffect = .fault) :
    exec (.machineCall nnn) s = .next (s.raise (.machineCallUnsupported nnn)) := by
  simp only [exec, execMachineCall, h]

theorem exec_machineCall_nop (nnn : Addr) (h : s.cfg.machineCallEffect = .nop) :
    exec (.machineCall nnn) s = .next s.advance := by
  simp only [exec, execMachineCall, h]

theorem exec_jump (nnn : Addr) (s : State) : exec (.jump nnn) s = .next (s.goto (zext16 nnn)) := rfl

theorem exec_jumpTo (nnn : Addr) (s : State) :
    exec (.jumpTo nnn) s = .next (s.goto (jumpTarget nnn (s.reg 0))) := rfl

/-- The state with one more slot in use, holding `a` (R101). -/
def State.pushed (s : State) (a : Word) (h : s.sp.val < 16) : State :=
  { s with stack := s.stack.set s.sp.val a, sp := ⟨s.sp.val + 1, by omega⟩ }

/-- The state with one slot less in use (R103). -/
def State.popped (s : State) (h : 0 < s.sp.val) : State := { s with sp := ⟨s.sp.val - 1, by omega⟩ }

theorem exec_call_room (nnn : Addr) (h : s.sp.val < 16) :
    exec (.call nnn) s = .next ((s.pushed s.pc h).goto (zext16 nnn)) := by
  simp only [exec, execCall, s.push_room _ h, State.pushed]

theorem exec_call_full (nnn : Addr) (h : ¬ s.sp.val < 16) : exec (.call nnn) s = .next (s.raise .stackOverflow) := by
  simp only [exec, execCall, s.push_full _ h]

theorem exec_ret_some (h : 0 < s.sp.val) :
    exec .ret s = .next ((s.popped h).goto (s.stack[s.sp.val - 1] + 2)) := by
  simp only [exec, execReturn, s.pop_some h, State.popped]

theorem exec_ret_empty (h : ¬ 0 < s.sp.val) : exec .ret s = .next (s.raise .stackUnderflow) := by
  simp only [exec, execReturn, s.pop_empty h]

theorem exec_skipIfPressed_key {x : RegIx} (h : (s.reg x).toNat < 16) :
    exec (.skipIfPressed x) s = .next (s.skipIf s.key[(s.reg x).toNat]) := by
  simp only [exec, execSkipIfPressed, s.keyDown_some _ h]

theorem exec_skipIfPressed_noKey {x : RegIx} (h : ¬ (s.reg x).toNat < 16) :
    exec (.skipIfPressed x) s = .next (s.raise (.keyIndexOutOfRange (s.reg x))) := by
  simp only [exec, execSkipIfPressed, s.keyDown_none _ h]

theorem exec_skipIfNotPressed_key {x : RegIx} (h : (s.reg x).toNat < 16) :
    exec (.skipIfNotPressed x) s = .next (s.skipIf !s.key[(s.reg x).toNat]) := by
  simp only [exec, execSkipIfNotPressed, s.keyDown_some _ h]

theorem exec_skipIfNotPressed_noKey {x : RegIx} (h : ¬ (s.reg x).toNat < 16) :
    exec (.skipIfNotPressed x) s = .next (s.raise (.keyIndexOutOfRange (s.reg x))) := by
  simp only [exec, execSkipIfNotPressed, s.keyDown_none _ h]

theorem exec_waitKey_idle (x : RegIx) (h : s.lowestKey = none) : exec (.waitKey x) s = .next s := by
  simp only [exec, execWaitKey, h]

theorem exec_waitKey_key (x : RegIx) {k : Fin 16} (h : s.lowestKey = some k) :
    exec (.waitKey x) s = .next (s.setReg x (BitVec.ofNat 8 k.val)).advance := by
  simp only [exec, execWaitKey, h]

/-- The fault of a range of bytes at idx that passes 0xFFF (R146). -/
def State.outOfRange (s : State) : Fault := .memOutOfRange (max s.idx.toNat 0x1000)

/-- R175: with idx inside memory the payload is the first address past it. -/
theorem State.outOfRange_eq (h : s.idx.toNat ≤ 0xFFF) : s.outOfRange = .memOutOfRange 0x1000 := by
  rw [State.outOfRange, Nat.max_eq_right (by omega)]

theorem State.rangeFault_in {last : Nat} (h : s.idx.toNat + last ≤ 0xFFF) : s.rangeFault last = none :=
  (s.rangeFault_none last).2 h

theorem State.rangeFault_out {last : Nat} (h : ¬ s.idx.toNat + last ≤ 0xFFF) :
    s.rangeFault last = some s.outOfRange :=
  (s.rangeFault_some last _).2 ⟨by omega, rfl⟩

theorem exec_bcd_in (x : RegIx) (h : s.idx.toNat + 2 ≤ 0xFFF) :
    exec (.bcd x) s = .next (s.storeFrom (s.dataAddr 0) (bcdDigits (s.reg x))).advance := by
  simp only [exec, execBcd, State.rangeFault_in h]

theorem exec_bcd_out (x : RegIx) (h : ¬ s.idx.toNat + 2 ≤ 0xFFF) :
    exec (.bcd x) s = .next (s.raise s.outOfRange) := by
  simp only [exec, execBcd, State.rangeFault_out h]

theorem exec_dumpRegisters_in {x : RegIx} (h : s.idx.toNat + x.val ≤ 0xFFF) :
    exec (.dumpRegisters x) s = .next (s.storeFrom (s.dataAddr 0) (s.regsUpTo x)).advance := by
  simp only [exec, execDumpRegisters, State.rangeFault_in h]

theorem exec_dumpRegisters_out {x : RegIx} (h : ¬ s.idx.toNat + x.val ≤ 0xFFF) :
    exec (.dumpRegisters x) s = .next (s.raise s.outOfRange) := by
  simp only [exec, execDumpRegisters, State.rangeFault_out h]

theorem exec_fillRegisters_in {x : RegIx} (h : s.idx.toNat + x.val ≤ 0xFFF) :
    exec (.fillRegisters x) s = .next (s.loadRegs x).advance := by
  simp only [exec, execFillRegisters, State.rangeFault_in h]

theorem exec_fillRegisters_out {x : RegIx} (h : ¬ s.idx.toNat + x.val ≤ 0xFFF) :
    exec (.fillRegisters x) s = .next (s.raise s.outOfRange) := by
  simp only [exec, execFillRegisters, State.rangeFault_out h]

/-- The screen and the collision that Draw(x, y, n) leaves (R151). -/
def State.drawing (s : State) (x y : RegIx) (n : Nat) : Canvas :=
  drawRows (s.reg x) (s.reg y) 0 (s.bytesAtIdx n) { screen := s.screen, hit := false }

theorem exec_draw_in (x y : RegIx) {n : Fin 16} (h : n.val = 0 ∨ s.idx.toNat + n.val - 1 ≤ 0xFFF) :
    exec (.draw x y n) s = .next (s.showCanvas (s.drawing x y n.val)).advance := by
  by_cases hn : n.val = 0
  · simp only [exec, execDraw, if_pos hn, State.drawing]
  · simp only [exec, execDraw, if_neg hn, State.rangeFault_in (show s.idx.toNat + (n.val - 1) ≤ 0xFFF by omega),
      State.drawing]

theorem exec_draw_out (x y : RegIx) {n : Fin 16} (h : ¬ (n.val = 0 ∨ s.idx.toNat + n.val - 1 ≤ 0xFFF)) :
    exec (.draw x y n) s = .next (s.raise s.outOfRange) := by
  obtain ⟨hn, hidx⟩ := not_or.1 h
  simp only [exec, execDraw, if_neg hn, State.rangeFault_out (show ¬ s.idx.toNat + (n.val - 1) ≤ 0xFFF by omega)]

/-! ### The kinds of effect -/

/-- What the instruction `i` leaves of `s` when it raises no fault: one constructor for each kind of effect, not for
each instruction. A register it names is one that R29 lets the instruction write. -/
inductive Effect (s : State) : Instr → State → Prop
  | wait (x : RegIx) : Effect s (.waitKey x) s
  | next {i : Instr} : Effect s i s.advance
  | skip {i : Instr} (p : Bool) : Effect s i (s.skipIf p)
  | reg {i : Instr} {x : RegIx} (b : Byte) (hx : writesReg i x = true) : Effect s i (s.setReg x b).advance
  | regFlag {i : Instr} {x : RegIx} (b f : Byte) (hx : writesReg i x = true) (hf : writesReg i vf = true) :
      Effect s i (s.setRegFlag x b f).advance
  | goto {i : Instr} {a : Word} (ha : a.toNat ≤ 0x10FE) : Effect s i (s.goto a)
  | call (nnn : Addr) (h : s.sp.val < 16) : Effect s (.call nnn) ((s.pushed s.pc h).goto (zext16 nnn))
  | ret (h : 0 < s.sp.val) : Effect s .ret ((s.popped h).goto (s.stack[s.sp.val - 1] + 2))
  | idx {i : Instr} {a : Word} (ha : a.toNat ≤ 0xFFF) (hi : writesIdx i = true) : Effect s i (s.setIdx a).advance
  | idxFlag (x : RegIx) {a : Word} (f : Byte) (ha : a.toNat ≤ 0xFFF) :
      Effect s (.incrementIdx x) ((s.setIdx a).setReg vf f).advance
  | store {i : Instr} {bs : List Byte} (hl : bs.length = bytesStored i) (hb : s.idx.toNat + bs.length ≤ 4096) :
      Effect s i (s.storeFrom (s.dataAddr 0) bs).advance
  | load (x : RegIx) : Effect s (.fillRegisters x) (s.loadRegs x).advance
  | blank : Effect s .clearScreen { s.advance with screen := Vector.replicate 32 0, drawFlag := true }
  | draw (x y : RegIx) (n : Fin 16) (c : Canvas) : Effect s (.draw x y n) (s.showCanvas c).advance
  | delay (x : RegIx) : Effect s (.setDelay x) { s.advance with dt := s.reg x }
  | sound (x : RegIx) : Effect s (.setSound x) { s.advance with st := s.reg x }

theorem zext16_le (nnn : Addr) : (zext16 nnn).toNat ≤ 0xFFF := by
  have := nnn.isLt
  rw [zext16_toNat]; omega

theorem jumpTarget_le (nnn : Addr) (a : Byte) : (jumpTarget nnn a).toNat ≤ 0x10FE := by
  have := nnn.isLt
  have := a.isLt
  rw [jumpTarget_toNat]; omega

theorem glyphAddr_le (a : Byte) : (glyphAddr a).toNat ≤ 0xFFF := by
  have := a.isLt
  rw [glyphAddr_toNat]; omega

theorem idxSum_le (m : IdxAddModulus) (i : Word) (a : Byte) : (idxSum m i a).toNat ≤ 0xFFF := by
  obtain ⟨hpos, hle⟩ := idxModulus_bounds m
  have := Nat.mod_lt (i.toNat + a.toNat) hpos
  rw [idxSum_toNat]; omega

/-- What `exec` can do: raise the fault of R170's table and nothing else, or raise none and have one of the kinds of
effect. -/
theorem exec_cases (i : Instr) (s : State) :
    (∃ f, faultOf i s = some f ∧ exec i s = .next (s.raise f)) ∨
    (faultOf i s = none ∧ ∃ t, exec i s = .next t ∧ Effect s i t) := by
  cases i
  case clearScreen => exact .inr ⟨rfl, _, exec_clearScreen s, .blank⟩
  case ret =>
    by_cases h : 0 < s.sp.val
    · exact .inr ⟨if_neg (by omega), _, exec_ret_some h, .ret h⟩
    · exact .inl ⟨_, if_pos (by omega), exec_ret_empty h⟩
  case machineCall nnn =>
    cases h : s.cfg.machineCallEffect with
    | fault => exact .inl ⟨_, if_pos h, exec_machineCall_fault nnn h⟩
    | nop => exact .inr ⟨if_neg (by simp [h]), _, exec_machineCall_nop nnn h, .next⟩
  case jump nnn => exact .inr ⟨rfl, _, rfl, .goto ((zext16_le nnn).trans (by decide))⟩
  case jumpTo nnn => exact .inr ⟨rfl, _, rfl, .goto (jumpTarget_le nnn _)⟩
  case call nnn =>
    by_cases h : s.sp.val < 16
    · exact .inr ⟨if_neg (by omega), _, exec_call_room nnn h, .call nnn h⟩
    · exact .inl ⟨_, if_pos (by omega), exec_call_full nnn h⟩
  case skipIfEqVal | skipIfNotEqVal | skipIfMatchReg | skipIfMismatchReg => exact .inr ⟨rfl, _, rfl, .skip _⟩
  case setRegister | add | assign | or | and | xor | rand | storeDelay =>
    exact .inr ⟨rfl, _, rfl, .reg _ (by simp [writesReg])⟩
  case addAssign | subAssign | shiftRight | flippedSubAssign | shiftLeft =>
    exact .inr ⟨rfl, _, rfl, .regFlag _ _ (by simp [writesReg]) (by simp [writesReg])⟩
  case setIdx nnn => exact .inr ⟨rfl, _, rfl, .idx (zext16_le nnn) rfl⟩
  case newSprite x => exact .inr ⟨rfl, _, rfl, .idx (glyphAddr_le _) rfl⟩
  case incrementIdx x => exact .inr ⟨rfl, _, rfl, .idxFlag x _ (idxSum_le _ _ _)⟩
  case draw x y n =>
    by_cases h : n.val = 0 ∨ s.idx.toNat + n.val - 1 ≤ 0xFFF
    · exact .inr ⟨if_neg (by omega), _, exec_draw_in x y h, .draw x y n _⟩
    · exact .inl ⟨_, if_pos (by omega), exec_draw_out x y h⟩
  case skipIfPressed x =>
    by_cases h : (s.reg x).toNat < 16
    · exact .inr ⟨if_neg (by omega), _, exec_skipIfPressed_key h, .skip _⟩
    · exact .inl ⟨_, if_pos (by omega), exec_skipIfPressed_noKey h⟩
  case skipIfNotPressed x =>
    by_cases h : (s.reg x).toNat < 16
    · exact .inr ⟨if_neg (by omega), _, exec_skipIfNotPressed_key h, .skip _⟩
    · exact .inl ⟨_, if_pos (by omega), exec_skipIfNotPressed_noKey h⟩
  case waitKey x =>
    cases h : s.lowestKey with
    | none => exact .inr ⟨rfl, _, exec_waitKey_idle x h, .wait x⟩
    | some k => exact .inr ⟨rfl, _, exec_waitKey_key x h, .reg _ (by simp [writesReg])⟩
  case setDelay x => exact .inr ⟨rfl, _, rfl, .delay x⟩
  case setSound x => exact .inr ⟨rfl, _, rfl, .sound x⟩
  case bcd x =>
    by_cases h : s.idx.toNat + 2 ≤ 0xFFF
    · exact .inr ⟨if_neg (by omega), _, exec_bcd_in x h, .store rfl (by rw [bcdDigits_length]; omega)⟩
    · exact .inl ⟨_, if_pos (by omega), exec_bcd_out x h⟩
  case dumpRegisters x =>
    by_cases h : s.idx.toNat + x.val ≤ 0xFFF
    · exact .inr ⟨if_neg (by omega), _, exec_dumpRegisters_in h, .store (s.regsUpTo_length x)
        (by rw [State.regsUpTo_length]; omega)⟩
    · exact .inl ⟨_, if_pos (by omega), exec_dumpRegisters_out h⟩
  case fillRegisters x =>
    by_cases h : s.idx.toNat + x.val ≤ 0xFFF
    · exact .inr ⟨if_neg (by omega), _, exec_fillRegisters_in h, .load x⟩
    · exact .inl ⟨_, if_pos (by omega), exec_fillRegisters_out h⟩

/-- The same, backwards. -/
theorem exec_inversion (h : exec i s = .next t) :
    (∃ f, faultOf i s = some f ∧ t = s.raise f) ∨ (faultOf i s = none ∧ Effect s i t) := by
  obtain ⟨f, hf, he⟩ | ⟨hf, u, he, hu⟩ := exec_cases i s <;> rw [h] at he <;> cases he
  · exact .inl ⟨f, hf, rfl⟩
  · exact .inr ⟨hf, hu⟩

/-! ### Faults -/

/-- No effect of a fault-free instruction touches the latch. -/
theorem Effect.fault (h : Effect s i t) : t.fault = s.fault := by
  cases h
  case store => exact State.storeFrom_fault
  all_goals rfl

/-- An instruction of an unfaulted machine leaves in the latch what R170's table says. -/
theorem exec_fault (hs : s.fault = none) (h : exec i s = .next t) : t.fault = faultOf i s := by
  obtain ⟨f, hf, rfl⟩ | ⟨hf, ht⟩ := exec_inversion h
  · rw [hf, s.raise_fault]
  · rw [hf, ht.fault, hs]

/-- R178: an instruction that raises a fault does nothing but latch it. -/
theorem exec_of_faultOf {f : Fault} (hf : faultOf i s = some f) : exec i s = .next (s.raise f) := by
  obtain ⟨f', hf', he⟩ | ⟨hf', -⟩ := exec_cases i s <;> rw [hf'] at hf <;> cases hf
  exact he

/-- Settles O14: the table decides between raising its fault and an effect that leaves the latch alone. -/
theorem instructionFaults : Obligations.InstructionFaults := by
  intro i s hs
  obtain ⟨t, ht, -⟩ := exec_total i s
  refine ⟨t, ht, exec_fault hs ht, fun f hf => ?_⟩
  rw [exec_of_faultOf hf] at ht
  cases ht
  rfl

/-! ### What an instruction leaves alone -/

/-- R29: what the row of `i` does not list is in `t` as it is in `s`. Each field is proved by `rfl` where the effect
does not name it. -/
structure State.Kept (s : State) (i : Instr) (t : State) : Prop where
  reg : ∀ r, writesReg i r = false → t.reg r = s.reg r := by exact fun _ _ => rfl
  idx : writesIdx i = false → t.idx = s.idx := by exact fun _ => rfl
  memRead : ∀ a, (a < s.dataAddr 0 ∨ s.dataAddr 0 + bytesStored i ≤ a) → t.memRead a = s.memRead a := by
    exact fun _ _ => rfl
  mem : bytesStored i = 0 → t.mem = s.mem := by exact fun _ => rfl
  stack : writesStack i = false → t.stack = s.stack ∧ t.sp = s.sp := by exact fun _ => ⟨rfl, rfl⟩
  dt : writesDt i = false → t.dt = s.dt := by exact fun _ => rfl
  st : writesSt i = false → t.st = s.st := by exact fun _ => rfl
  screen : writesScreen i = false → t.screen = s.screen ∧ t.drawFlag = s.drawFlag := by exact fun _ => ⟨rfl, rfl⟩

/-- A register that the instruction does not write is another than one that it writes. -/
theorem ne_of_writesReg {x r : RegIx} (hx : writesReg i x = true) (hr : writesReg i r = false) : r ≠ x := by
  rintro rfl
  simp [hx] at hr

theorem State.memRead_storeFrom_of_ne {a k : Nat} {bs : List Byte} (h : k < a ∨ a + bs.length ≤ k) :
    (s.storeFrom a bs).memRead k = s.memRead k := by
  rw [State.memRead_storeFrom, dif_neg (by omega)]

theorem Effect.kept (h : Effect s i t) : s.Kept i t := by
  cases h
  case wait | next | skip | goto => exact {}
  case reg x b hx => exact { reg := fun r hr => s.reg_setReg_of_ne (ne_of_writesReg hx hr) b }
  case regFlag x b f hx hf =>
    exact { reg := fun r hr => by
              rw [State.advance_reg, State.reg_setRegFlag, if_neg (ne_of_writesReg hf hr), if_neg (ne_of_writesReg hx hr)] }
  case call | ret => exact { stack := by simp [writesStack] }
  case idx a ha hi => exact { idx := by simp [hi] }
  case idxFlag x a f ha =>
    exact { reg := fun r hr => (s.setIdx a).reg_setReg_of_ne (by simpa [writesReg] using hr) f
            idx := by simp [writesIdx] }
  case store bs hb hl =>
    exact { reg := fun r _ => State.storeFrom_reg r
            idx := fun _ => State.storeFrom_idx
            memRead := fun a ha => State.memRead_storeFrom_of_ne (hl ▸ ha)
            mem := fun h => by rw [List.length_eq_zero_iff.1 (hl.trans h)]; rfl
            stack := fun _ => ⟨State.storeFrom_stack, State.storeFrom_sp⟩
            dt := fun _ => State.storeFrom_dt
            st := fun _ => State.storeFrom_st
            screen := fun _ => ⟨State.storeFrom_screen, State.storeFrom_drawFlag⟩ }
  case load x =>
    -- The loaded registers as a variable: `rfl` would evaluate all sixteen of them.
    have hreg := fun r => s.reg_loadRegs x r
    unfold State.loadRegs at hreg ⊢
    generalize s.loadedRegs x = v at hreg ⊢
    exact { reg := fun r hr => (hreg r).trans (if_neg (by simpa [writesReg] using hr)) }
  case blank => exact { screen := by simp [writesScreen] }
  case draw x y n c =>
    exact { reg := fun r hr => s.reg_setReg_of_ne (by simpa [writesReg] using hr) (flagByte c.hit)
            screen := by simp [writesScreen] }
  case delay => exact { dt := by simp [writesDt] }
  case sound => exact { st := by simp [writesSt] }

/-- R29 for every instruction, a faulting one too. -/
theorem exec_kept (h : exec i s = .next t) : s.Kept i t := by
  obtain ⟨f, -, rfl⟩ | ⟨-, ht⟩ := exec_inversion h
  · exact {}
  · exact ht.kept

/-- Settles O22: no kind of effect touches more than the row of its instruction lists, and the ports, the key latches
and the parameters are outside what `exec` reaches. -/
theorem whatEachInstructionWrites : Obligations.WhatEachInstructionWrites := by
  intro i s
  obtain ⟨t, ht, ho⟩ := exec_total i s
  have hk := exec_kept ht
  exact ⟨t, ht, hk.reg, hk.idx, hk.memRead, hk.mem, hk.stack, hk.dt, hk.st, hk.screen, ho.key, ho.cfg, ho.alert,
    ho.result, ho.inputs, ho.script, ho.draws⟩

end Sys2Proof.Machine
end

section
/-! The statements of the family 'other' about the step (40_cycle.md, 60_exceptions.md). Whether a step faults, and
with which fault, is one function of the state, `State.wouldFault`; a step that does not fault is a quit or completes. -/

namespace Sys2Proof.Machine

variable {s t : State} {i : Instr} {f : Fault}

/-! ### The fault of a step -/

/-- The fault that a step of the unfaulted machine raises when `quit_in` is clear: fetch, decode and execute in this
order (R180). -/
def State.wouldFault (s : State) : Option Fault :=
  match s.fetch with
  | none => some (.pcOutOfRange s.pc)
  | some w =>
    match decode w with
    | .unrecognized raw => some (.invalidOpcode raw)
    | .instr i => faultOf i s

theorem State.wouldFault_fetch_out (h : s.fetch = none) : s.wouldFault = some (.pcOutOfRange s.pc) := by
  simp only [State.wouldFault, h]

theorem State.wouldFault_unrecognized {w raw : Word} (h : s.fetch = some w) (hd : decode w = .unrecognized raw) :
    s.wouldFault = some (.invalidOpcode raw) := by
  simp only [State.wouldFault, h, hd]

theorem State.wouldFault_instr {w : Word} (h : s.fetch = some w) (hd : decode w = .instr i) :
    s.wouldFault = faultOf i s := by
  simp only [State.wouldFault, h, hd]

/-- R86, R178: a step that would fault latches the fault and ends. -/
theorem step_of_wouldFault (hr : s.running) (h : s.wouldFault = some f) : step s = .next ((s.raise f).faulted f) := by
  cases hf : s.fetch with
  | none =>
    rw [State.wouldFault_fetch_out hf] at h
    cases h
    exact step_fetch_out hr hf
  | some w =>
    cases hd : decode w with
    | unrecognized raw =>
      obtain rfl := decode_unrecognized hd
      rw [State.wouldFault_unrecognized hf hd] at h
      cases h
      exact step_invalid hr hf hd
    | instr i =>
      rw [State.wouldFault_instr hf hd] at h
      rw [step_instr hr hf hd (exec_of_faultOf h), State.endStep_some _ (s.raise_fault f)]

/-- R85 to R90: a step that would not fault runs an instruction to its end. -/
theorem step_of_not_wouldFault (hr : s.running) (h : s.wouldFault = none) :
    ∃ w i u, s.fetch = some w ∧ decode w = .instr i ∧ exec i s = .next u ∧ u.fault = none ∧
      step s = .next u.completed := by
  cases hf : s.fetch with
  | none => simp [State.wouldFault_fetch_out hf] at h
  | some w =>
    cases hd : decode w with
    | unrecognized raw => simp [State.wouldFault_unrecognized hf hd] at h
    | instr i =>
      obtain ⟨u, hu, -⟩ := exec_total i s
      have hu' : u.fault = none := by rw [exec_fault hr.1 hu, ← State.wouldFault_instr hf hd, h]
      exact ⟨w, i, u, rfl, hd, hu, hu', by rw [step_instr hr hf hd hu, u.endStep_none hu']⟩

/-- The four ends of a step: the latched fault again, a quit, a fault raised, completed. -/
theorem step_ends (h : step s = .next t) :
    (∃ f, s.fault = some f ∧ t = s.stillFaulted f) ∨
    (s.fault = none ∧ s.inputs.quit = true ∧ t = s.quitted) ∨
    (s.running ∧ ∃ f, s.wouldFault = some f ∧ t = (s.raise f).faulted f) ∨
    (s.running ∧ s.wouldFault = none ∧ ∃ w i u, s.fetch = some w ∧ decode w = .instr i ∧ exec i s = .next u ∧
      u.fault = none ∧ t = u.completed) := by
  cases hf : s.fault with
  | some f =>
    rw [step_latched hf] at h
    cases h
    exact .inl ⟨f, rfl, rfl⟩
  | none =>
    cases hq : s.inputs.quit with
    | true =>
      rw [step_quit hf hq] at h
      cases h
      exact .inr (.inl ⟨rfl, rfl, rfl⟩)
    | false =>
      refine .inr (.inr ?_)
      have hr : s.running := ⟨hf, hq⟩
      cases hw : s.wouldFault with
      | some f =>
        rw [step_of_wouldFault hr hw] at h
        cases h
        exact .inl ⟨hr, f, rfl, rfl⟩
      | none =>
        obtain ⟨w, i, u, hfetch, hd, he, hu, hs⟩ := step_of_not_wouldFault hr hw
        rw [hs] at h
        cases h
        exact .inr ⟨hr, rfl, w, i, u, hfetch, hd, he, hu, rfl⟩

/-- The latch after a step of the running machine holds exactly what the state says. -/
theorem step_fault (hr : s.running) (h : step s = .next t) : t.fault = s.wouldFault := by
  cases hw : s.wouldFault with
  | some f =>
    rw [step_of_wouldFault hr hw] at h
    cases h
    rfl
  | none =>
    obtain ⟨w, i, u, -, -, -, hu, hs⟩ := step_of_not_wouldFault hr hw
    rw [hs] at h
    cases h
    rw [u.completed_fault, hu]

/-! ### The statements -/

theorem beq_one_iff (a : Byte) : (a == 1) = true ↔ a.toNat = 1 := by
  rw [beq_iff_eq, ← BitVec.toNat_inj]
  rfl

/-- Settles O8: `endStep` chooses by the latch; a completed step is the tick, the refresh and the ports moved on. -/
theorem stepRunsDecodedInstruction : Obligations.StepRunsDecodedInstruction := by
  intro s t w i hs hq hf hd he
  have hstep := step_instr ⟨hs, hq⟩ hf hd he
  have ho := exec_sameOutside he
  have hports : s.comingInputs = t.comingInputs ∧ s.script = t.script ∧ s.drawsAfter = t.drawsAfter := by
    simp only [State.comingInputs, State.drawsAfter, ho.script, ho.draws, and_self]
  obtain ⟨hin, hscript, hdraws⟩ := hports
  refine ⟨fun ht => ?_, fun f ht => ?_⟩
  · rw [hstep, t.endStep_none ht, hin, hscript, hdraws, ← ho.inputs]
    have halert : (t.st == 1) = decide (t.st.toNat = 1) := by
      rw [Bool.eq_iff_iff, beq_one_iff, decide_eq_true_iff]
    simp only [State.completed, State.tick, State.refreshKeys, State.nextInputs, halert]
    rfl
  · rw [hstep, t.endStep_some ht, hin, hscript, hdraws]
    rfl

theorem core_run_succ (n : Nat) (h : step s = .next t) : Sys2Proof.core.run (n + 1) s = Sys2Proof.core.run n t := by
  simp only [Host.Core.run, show Sys2Proof.core.step s = .next t from h]

/-- Settles O9: the state in which a step leaves a faulted machine is one that a further step leaves as it is. -/
theorem faultedMachineStays : Obligations.FaultedMachineStays := by
  intro s f n hs
  induction n generalizing s with
  | zero => exact core_run_succ 0 (step_latched hs)
  | succ n ih =>
    rw [core_run_succ (n + 1) (step_latched hs)]
    exact ih (s.stillFaulted f) hs

/-- Settles O10: the step quits before it fetches, and `quitted` is the ports moved on. -/
theorem quitStepDoesNothing : Obligations.QuitStepDoesNothing :=
  fun _ hs hq => ⟨_, step_quit hs hq, rfl⟩

/-- Settles O11: no word is fetched from pc > 0xFFE. -/
theorem fetchBeyondMemoryFaults : Obligations.FetchBeyondMemoryFaults :=
  fun s hs hq hpc => ⟨_, step_fetch_out ⟨hs, hq⟩ (s.fetch_out (by omega)), rfl⟩

/-- Settles O12: the case of a step that fetched no instruction, with the frame of raising and ending a fault. -/
theorem unrecognizedWordFaults : Obligations.UnrecognizedWordFaults :=
  fun _ _ hs hq hf hd => ⟨_, step_invalid ⟨hs, hq⟩ hf hd, rfl⟩

/-- Settles O13: of the four ends of a step only a raised fault leaves a latch set that was clear, and it changes the
latch and the ports only. -/
theorem faultsArePrecise : Obligations.FaultsArePrecise := by
  intro s t f hs h ht
  obtain ⟨g, hg, rfl⟩ | ⟨-, -, rfl⟩ | ⟨-, g, -, rfl⟩ | ⟨-, -, w, i, u, -, -, -, hu, rfl⟩ := step_ends h
  · simp [hs] at hg
  · simp [hs] at ht
  · cases ht
    rfl
  · simp [hu] at ht

/-- Settles O15: with quit_in clear the latch is `wouldFault`, which tests in R180's order. -/
theorem faultPriority : Obligations.FaultPriority := by
  intro s hs
  obtain ⟨t, ht⟩ := step_total s
  refine ⟨t, ht, fun hq => ?quit, fun hq hpc => ?fetch, fun hq w hf => ⟨fun hd => ?decode, fun i hd => ?execute⟩⟩
  case quit =>
    rw [step_quit hs hq] at ht
    cases ht
    exact hs
  case fetch => rw [step_fault ⟨hs, hq⟩ ht, State.wouldFault_fetch_out (s.fetch_out (by omega))]
  case decode => rw [step_fault ⟨hs, hq⟩ ht, State.wouldFault_unrecognized hf hd]
  case execute => rw [step_fault ⟨hs, hq⟩ ht, State.wouldFault_instr hf hd]

/-- Settles O16: each of the four ends of a step reports itself. -/
theorem everyStepReports : Obligations.EveryStepReports := by
  intro s
  obtain ⟨t, ht⟩ := step_total s
  refine ⟨t, ht, ?_⟩
  obtain ⟨f, hf, rfl⟩ | ⟨hs, hq, rfl⟩ | ⟨⟨hs, -⟩, f, -, rfl⟩ | ⟨⟨hs, hq⟩, -, w, i, u, -, -, -, hu, rfl⟩ :=
    step_ends ht
  · exact .inr (.inr ⟨f, rfl, hf, .inr hf⟩)
  · exact .inr (.inl ⟨rfl, hs, hs, hq⟩)
  · exact .inr (.inr ⟨f, rfl, rfl, .inl hs⟩)
  · exact .inl ⟨u.completed_result, by rw [u.completed_fault, hu], hs, hq⟩

end Sys2Proof.Machine
end

section
/-! The invariants of the family 'other': the bounds of R27 with the canonical form of memory, and R22's latched fault
that would recur. Both are kept effect by effect. -/

namespace Sys2Proof.Machine

variable {s t : State} {i : Instr} {f : Fault}

/-! ### The invariant of R27 -/

/-- The invariant speaks of memory, the parameters, idx, the stack and pc only. -/
theorem State.Inv.of_same (h : s.Inv) (hmem : t.mem = s.mem) (hcfg : t.cfg = s.cfg) (hidx : t.idx = s.idx)
    (hstack : t.stack = s.stack) (hsp : t.sp = s.sp) (hpc : t.pc.toNat ≤ 0x10FE) : t.Inv where
  mem := by rw [hmem, hcfg]; exact h.mem
  idx := by rw [hidx]; exact h.idx
  pc := hpc
  stack := by rw [hstack, hsp]; exact h.stack

/-- Only the bound on idx is about idx. -/
theorem State.Inv.setIdx (h : s.Inv) {a : Word} (ha : a.toNat ≤ 0xFFF) : (s.setIdx a).Inv := { h with idx := ha }

theorem State.Inv.storeFrom (h : s.Inv) {a : Nat} {bs : List Byte} (hb : a + bs.length ≤ 4096) :
    (s.storeFrom a bs).Inv where
  mem := State.storeFrom_wf h.mem hb
  idx := by rw [State.storeFrom_idx]; exact h.idx
  pc := by rw [State.storeFrom_pc]; exact h.pc
  stack := by rw [State.storeFrom_stack, State.storeFrom_sp]; exact h.stack

/-- A pushed address of an instruction in memory is a slot within bounds. -/
theorem State.Inv.pushed (h : s.Inv) {a : Word} (ha : a.toNat ≤ 0xFFE) (hsp : s.sp.val < 16) : (s.pushed a hsp).Inv where
  mem := h.mem
  idx := h.idx
  pc := h.pc
  stack := by
    intro j hj hlive
    change j < s.sp.val + 1 at hlive
    simp only [State.pushed, Vector.getElem_set]
    split
    · exact ha
    · exact h.stack j hj (by omega)

theorem State.Inv.popped (h : s.Inv) (hsp : 0 < s.sp.val) : (s.popped hsp).Inv where
  mem := h.mem
  idx := h.idx
  pc := h.pc
  stack := fun j hj hlive => h.stack j hj (by change j < s.sp.val - 1 at hlive; omega)

theorem State.Inv.goto (h : s.Inv) {a : Word} (ha : a.toNat ≤ 0x10FE) : (s.goto a).Inv := { h with pc := ha }

/-- An instruction in memory that moves on by at most 4 leaves pc within bounds. -/
theorem add_pc_le {a d : Word} (ha : a.toNat ≤ 0xFFE) (hd : d.toNat ≤ 4) : (a + d).toNat ≤ 0x10FE := by
  rw [BitVec.toNat_add]
  omega

theorem State.Inv.advance (h : s.Inv) (hpc : s.pc.toNat ≤ 0xFFE) : s.advance.Inv :=
  { h with pc := add_pc_le hpc (by decide) }

/-- Every kind of effect of an instruction in memory keeps the invariant. -/
theorem Effect.inv (h : Effect s i t) (hs : s.Inv) (hpc : s.pc.toNat ≤ 0xFFE) : t.Inv := by
  have hnext : (s.pc + 2).toNat ≤ 0x10FE := add_pc_le hpc (by decide)
  cases h
  case wait => exact hs
  case next => exact hs.advance hpc
  case skip p => exact hs.of_same rfl rfl rfl rfl rfl (add_pc_le hpc (by cases p <;> decide))
  case goto a ha => exact hs.goto ha
  case call nnn hsp => exact (hs.pushed hpc hsp).goto ((zext16_le nnn).trans (by decide))
  case ret hsp =>
    have hslot : s.stack[s.sp.val - 1].toNat ≤ 0xFFE := hs.stack _ (by omega) (by omega)
    exact (hs.popped hsp).goto (add_pc_le hslot (by decide))
  case idx a ha hi => exact (hs.setIdx ha).advance hpc
  case idxFlag x a f ha => exact (hs.setIdx ha).of_same rfl rfl rfl rfl rfl hnext
  case store bs hb hl => exact (hs.storeFrom hb).advance (by rw [State.storeFrom_pc]; exact hpc)
  case load x => exact hs.of_same (by simp) (by simp) (by simp) (by simp) (by simp) (by simpa using hnext)
  case reg | regFlag | blank | draw | delay | sound => exact hs.of_same rfl rfl rfl rfl rfl hnext

theorem State.pc_le_of_fetch {w : Word} (h : s.fetch = some w) : s.pc.toNat ≤ 0xFFE := by
  by_contra hpc
  rw [s.fetch_out hpc] at h
  cases h

/-- An instruction that was fetched keeps the invariant. -/
theorem exec_inv {w : Word} (hs : s.Inv) (hf : s.fetch = some w) (h : exec i s = .next t) : t.Inv := by
  obtain ⟨f, -, rfl⟩ | ⟨-, ht⟩ := exec_inversion h
  · exact hs.of_same rfl rfl rfl rfl rfl hs.pc
  · exact ht.inv hs (State.pc_le_of_fetch hf)

/-- Settles O24: the ends of a step are outside the invariant, so only the effect of the fetched instruction counts. -/
theorem stepKeepsInv : Obligations.StepKeepsInv := by
  intro s t hs h
  obtain ⟨f, -, rfl⟩ | ⟨-, -, rfl⟩ | ⟨-, f, -, rfl⟩ | ⟨-, -, w, i, u, hf, -, he, -, rfl⟩ := step_ends h
  · exact hs.of_same rfl rfl rfl rfl rfl hs.pc
  · exact hs.of_same rfl rfl rfl rfl rfl hs.pc
  · exact hs.of_same rfl rfl rfl rfl rfl hs.pc
  · have hu := exec_inv hs hf he
    exact hu.of_same u.completed_mem u.completed_cfg u.completed_idx u.completed_stack u.completed_sp
      (by rw [u.completed_pc]; exact hu.pc)

theorem State.resetOf_inv (c : Config) : (State.resetOf c).Inv where
  mem := State.resetOf_mem_wf c
  idx := Nat.zero_le _
  pc := show (0x200 : Word).toNat ≤ 0x10FE by decide
  stack := fun _ _ hlive => absurd hlive (Nat.not_lt_zero _)

/-- Settles O23: the reset values are within the bounds and no slot is live, whatever the parameters. -/
theorem invAtReset : Obligations.InvAtReset := ⟨State.resetOf_inv _, State.resetOf_inv⟩

theorem State.resetEvent_inv (s : State) : s.resetEvent.Inv :=
  (State.resetOf_inv s.cfg).of_same rfl rfl rfl rfl rfl (State.resetOf_inv s.cfg).pc

theorem State.load_refused {rom : List Byte} (h : rom.length > 3584) : s.load rom = (s, .romTooLarge) := if_pos h

theorem State.load_accepted {rom : List Byte} (h : rom.length ≤ 3584) :
    s.load rom = (s.resetEvent.storeFrom 0x200 rom, .loaded rom.length) := if_neg (by omega)

/-- Settles O25: a reset forgets the state before it, an accepted load stores from 0x200 at most to 0xFFF. -/
theorem hostEventsKeepInv : Obligations.HostEventsKeepInv := by
  intro s e hs
  cases e with
  | reset => exact s.resetEvent_inv
  | load rom =>
    rw [State.onEvent]
    by_cases h : rom.length ≤ 3584
    · rw [State.load_accepted h]
      exact s.resetEvent_inv.storeFrom (by omega)
    · rw [State.load_refused (by omega)]
      exact hs
  | frameAck => exact hs.of_same rfl rfl rfl rfl rfl hs.pc

/-! ### A latched fault would recur (R22) -/

/-- R22 through `wouldFault`: that function does not look at the latch, the quit port or any output. -/
theorem State.latchRecurs_iff : s.latchRecurs ↔ ∀ f, s.fault = some f → s.wouldFault = some f := by
  refine forall_congr' fun f => imp_congr_right fun _ => ?_
  have hr : State.running { s with fault := none, inputs := { s.inputs with quit := false } } := ⟨rfl, rfl⟩
  obtain ⟨t, ht⟩ := step_total { s with fault := none, inputs := { s.inputs with quit := false } }
  have hfault := step_fault hr ht
  constructor
  · rintro ⟨t', ht', hf⟩
    rw [ht] at ht'
    cases ht'
    rw [← hf, hfault]
    rfl
  · intro hw
    exact ⟨t, ht, by rw [hfault, ← hw]; rfl⟩

/-- What keeps the latch and what a step reads keeps the property. -/
theorem State.latchRecurs_of_same (h : s.latchRecurs) (hfault : t.fault = s.fault) (hw : t.wouldFault = s.wouldFault) :
    t.latchRecurs := by
  rw [State.latchRecurs_iff] at h ⊢
  rwa [hfault, hw]

theorem State.latchRecurs_of_none (h : s.fault = none) : s.latchRecurs := by
  intro f hf
  rw [h] at hf
  cases hf

/-- A step keeps the property: it latches nothing but the fault it would raise, and then changes nothing. -/
theorem step_latchRecurs (hs : s.latchRecurs) (h : step s = .next t) : t.latchRecurs := by
  obtain ⟨f, -, rfl⟩ | ⟨hf, -, rfl⟩ | ⟨-, f, hw, rfl⟩ | ⟨-, -, w, i, u, -, -, -, hu, rfl⟩ := step_ends h
  · exact State.latchRecurs_of_same hs rfl rfl
  · exact State.latchRecurs_of_none hf
  · rw [State.latchRecurs_iff]
    rintro g ⟨⟩
    exact hw
  · exact State.latchRecurs_of_none (by rw [u.completed_fault, hu])

/-- A reset and an accepted load clear the latch; a refused load and frame_ack leave what the step reads. -/
theorem onEvent_latchRecurs (e : HostEvent) (hs : s.latchRecurs) : (s.onEvent e).latchRecurs := by
  cases e with
  | reset => exact State.latchRecurs_of_none rfl
  | load rom =>
    rw [State.onEvent]
    by_cases h : rom.length ≤ 3584
    · rw [State.load_accepted h]
      exact State.latchRecurs_of_none State.storeFrom_fault
    · rw [State.load_refused (by omega)]
      exact hs
  | frameAck => exact State.latchRecurs_of_same hs rfl rfl

/-- Settles O26: the latch holds what `wouldFault` says, at reset, through every step and every host event. -/
theorem latchedFaultWouldRecur : Obligations.LatchedFaultWouldRecur :=
  ⟨State.latchRecurs_of_none rfl, fun _ _ => step_latchRecurs, fun _ => onEvent_latchRecurs⟩

/-! ### The canonical form of memory -/

/-- In canonical form a cell is listed exactly if its address reads as its byte, and not as unlisted. -/
theorem Memory.mem_iff_read {font : Font} {m : Memory} (h : m.wf font) (a : Nat) (b : Byte) :
    (a, b) ∈ m ↔ m.read font a = b ∧ b ≠ Memory.background font a := by
  obtain ⟨hsorted, hcells⟩ := h
  induction m with
  | nil => simp [eq_comm]
  | cons c m ih =>
    obtain ⟨k, d⟩ := c
    rw [List.pairwise_cons] at hsorted
    have ih := ih hsorted.2 fun d hd => hcells d (List.mem_cons_of_mem _ hd)
    rw [List.mem_cons, Memory.read_cons, Prod.mk.injEq]
    by_cases hk : k = a
    · subst hk
      have hlisted : d ≠ Memory.background font k := (hcells _ List.mem_cons_self).2
      have hlater : (k, b) ∉ m := fun hb => Nat.lt_irrefl _ (hsorted.1 (k, b) hb)
      rw [if_pos rfl, or_iff_left hlater]
      exact ⟨fun h => ⟨h.2.symm, h.2 ▸ hlisted⟩, fun h => ⟨rfl, h.1.symm⟩⟩
    · rw [if_neg hk, or_iff_right fun h => hk h.1.symm]
      exact ih

theorem Memory.wf.nodup {font : Font} {m : Memory} (h : m.wf font) : m.Nodup :=
  h.1.imp fun hlt heq => by rw [heq] at hlt; exact Nat.lt_irrefl _ hlt

/-- Settles O27: what is listed is what reads other than as unlisted, so two such memories have the same cells, and one
order of them. -/
theorem canonicalMemoryIsUnique : Obligations.CanonicalMemoryIsUnique := by
  intro font m m' h h' hread
  have hsame : ∀ c, c ∈ m ↔ c ∈ m' := by
    rintro ⟨a, b⟩
    by_cases ha : a < 4096
    · rw [Memory.mem_iff_read h, Memory.mem_iff_read h', hread a ha]
    · exact ⟨fun hc => absurd (h.2 _ hc).1 ha, fun hc => absurd (h'.2 _ hc).1 ha⟩
  have hperm : m.Perm m' := (List.perm_ext_iff_of_nodup (Memory.wf.nodup h) (Memory.wf.nodup h')).2 hsame
  exact hperm.eq_of_pairwise (fun a b _ _ hab hba => absurd hba (Nat.lt_asymm hab)) h.1 h'.1

end Sys2Proof.Machine
end

section
/-! The statements of the family 'other' about control transfer and skips (41_control_flow.md, 42_skips.md). Each follows
from the equation of its instruction. -/

namespace Sys2Proof.Machine

variable {s t : State}

/-! ### Control transfer -/

/-- Settles O28: the two values of the parameter are the two equations of MachineCall. -/
theorem machineCallEffects : Obligations.MachineCallEffects :=
  fun nnn _ => ⟨exec_machineCall_fault nnn, exec_machineCall_nop nnn⟩

/-- Settles O29: both jumps replace pc, and their targets fit in 16 bits. -/
theorem jumpTargets : Obligations.JumpTargets :=
  fun nnn s => ⟨⟨_, exec_jump nnn s, rfl, zext16_toNat nnn⟩, ⟨_, exec_jumpTo nnn s, rfl, jumpTarget_toNat nnn _⟩⟩

theorem State.pushed_stack (a : Word) (h : s.sp.val < 16) (j : Nat) (hj : j < 16) :
    (s.pushed a h).stack[j] = if j = s.sp.val then a else s.stack[j] := by
  simp only [State.pushed, Vector.getElem_set, eq_comm]

/-- Settles O30: the push writes slot sp and no other. -/
theorem callPushesItsAddress : Obligations.CallPushesItsAddress :=
  fun nnn s h => ⟨_, exec_call_room nnn h, rfl, zext16_toNat nnn, rfl, s.pushed_stack s.pc h⟩

/-- Return with j + 1 slots in use takes slot j. -/
theorem exec_ret_succ {j : Nat} (hj : j < 16) (h : s.sp.val = j + 1) :
    ∃ t, exec .ret s = .next t ∧ t = { s with pc := t.pc, sp := t.sp } ∧ t.pc = s.stack[j] + 2 ∧ t.sp.val = j := by
  refine ⟨_, exec_ret_some (by omega), rfl, ?pc, ?sp⟩
  case pc => simp only [State.goto_pc, h, Nat.add_sub_cancel]
  case sp => simp only [State.goto_sp, State.popped, h, Nat.add_sub_cancel]

/-- Settles O31: j + 1 slots in use are at least one, so the pop takes the last of them. -/
theorem returnPopsAndAddsTwo : Obligations.ReturnPopsAndAddsTwo := fun _ _ => exec_ret_succ

/-- A step whose instruction raises a fault latches it, whatever the instruction. -/
theorem step_of_faultOf {w : Word} {i : Instr} {f : Fault} (hr : s.running) (hf : s.fetch = some w)
    (hd : decode w = .instr i) (h : faultOf i s = some f) :
    ∃ t, step s = .next t ∧ t = { s with
      fault := some f, alert := false, result := some (.fault f)
      inputs := t.inputs, script := t.script, draws := t.draws } :=
  ⟨_, step_of_wouldFault hr (by rw [State.wouldFault_instr hf hd, h]), rfl⟩

/-- Settles O32: with sp = 16 the table gives Call its fault, which ends the step. -/
theorem stackOverflowFault : Obligations.StackOverflowFault :=
  fun _ _ _ hs hq hf hd hsp => step_of_faultOf ⟨hs, hq⟩ hf hd (if_pos hsp)

/-- Settles O33: with sp = 0 the table gives Return its fault, which ends the step. -/
theorem stackUnderflowFault : Obligations.StackUnderflowFault :=
  fun _ _ hs hq hf hd hsp => step_of_faultOf ⟨hs, hq⟩ hf hd (if_pos hsp)

/-- Settles O34: the slot that the Return takes is the one that the Call wrote. -/
theorem returnResumesAfterCall : Obligations.ReturnResumesAfterCall := by
  intro nnn s t u hsp ht hstack hspu
  rw [exec_call_room nnn hsp] at ht
  cases ht
  have hu : u.sp.val = s.sp.val + 1 := by rw [hspu]; rfl
  obtain ⟨v, hv, hframe, hpc, hvsp⟩ := exec_ret_succ hsp hu
  refine ⟨v, hv, ?pc, Fin.ext hvsp, ?stack⟩
  case pc => simp only [hpc, hstack, State.goto_stack, s.pushed_stack s.pc hsp, if_true]
  case stack => rw [hframe, hstack]

/-! ### Skips -/

theorem State.skipIf_pc_of_true {p : Bool} (h : p = true) : (s.skipIf p).pc = s.pc + 4 := by rw [h]; rfl

theorem State.skipIf_pc_of_false {p : Bool} (h : p = false) : (s.skipIf p).pc = s.pc + 2 := by rw [h]; rfl

theorem beq_of_toNat_eq {a b : Byte} (h : a.toNat = b.toNat) : (a == b) = true := beq_iff_eq.2 (BitVec.eq_of_toNat_eq h)

theorem beq_of_toNat_ne {a b : Byte} (h : a.toNat ≠ b.toNat) : (a == b) = false :=
  beq_eq_false_iff_ne.2 fun hab => h (congrArg BitVec.toNat hab)

/-- A skip on two equal bytes. -/
theorem State.skipIf_beq (s : State) (a b : Byte) :
    s.skipIf (a == b) = { s with pc := (s.skipIf (a == b)).pc } ∧
    (a.toNat = b.toNat → (s.skipIf (a == b)).pc = s.pc + 4) ∧
    (a.toNat ≠ b.toNat → (s.skipIf (a == b)).pc = s.pc + 2) :=
  ⟨rfl, fun h => State.skipIf_pc_of_true (beq_of_toNat_eq h), fun h => State.skipIf_pc_of_false (beq_of_toNat_ne h)⟩

/-- A skip on two bytes that differ. -/
theorem State.skipIf_bne (s : State) (a b : Byte) :
    s.skipIf (a != b) = { s with pc := (s.skipIf (a != b)).pc } ∧
    (a.toNat ≠ b.toNat → (s.skipIf (a != b)).pc = s.pc + 4) ∧
    (a.toNat = b.toNat → (s.skipIf (a != b)).pc = s.pc + 2) :=
  ⟨rfl, fun h => State.skipIf_pc_of_true (by rw [bne, beq_of_toNat_ne h, Bool.not_false]),
    fun h => State.skipIf_pc_of_false (by rw [bne, beq_of_toNat_eq h, Bool.not_true])⟩

/-- Settles O35: a skip on two equal bytes and one on two that differ, V[x] and the immediate. -/
theorem skipsOnValue : Obligations.SkipsOnValue :=
  fun x kk s => ⟨⟨_, rfl, s.skipIf_beq (s.reg x) kk⟩, ⟨_, rfl, s.skipIf_bne (s.reg x) kk⟩⟩

/-- Settles O36: the same two skips, on two registers. -/
theorem skipsOnRegisters : Obligations.SkipsOnRegisters :=
  fun x y s => ⟨⟨_, rfl, s.skipIf_beq (s.reg x) (s.reg y)⟩, ⟨_, rfl, s.skipIf_bne (s.reg x) (s.reg y)⟩⟩

/-- Settles O37: a number below 16 has a latch and the skip reads it; a number from 16 on has none. -/
theorem skipsOnKeys : Obligations.SkipsOnKeys := by
  intro x s
  refine ⟨fun k hk hx => ?_, fun hx => ⟨exec_skipIfPressed_noKey (by omega), exec_skipIfNotPressed_noKey (by omega)⟩⟩
  subst hx
  refine ⟨⟨_, exec_skipIfPressed_key hk, rfl, fun h => ?_, fun h => ?_⟩,
    ⟨_, exec_skipIfNotPressed_key hk, rfl, fun h => ?_, fun h => ?_⟩⟩
  · exact State.skipIf_pc_of_true h
  · exact State.skipIf_pc_of_false h
  · exact State.skipIf_pc_of_true (by rw [h, Bool.not_false])
  · exact State.skipIf_pc_of_false (by rw [h, Bool.not_true])

end Sys2Proof.Machine
end

section
/-! The statements of the family 'other' about registers, the index register and memory, timers, keys and the random
byte (43_alu.md, 44_index_memory.md, 46_timers_keys_random.md): what one instruction writes, from its equation. -/

namespace Sys2Proof.Machine

variable {s t : State}

/-! ### Registers and ALU -/

/-- What a single register write leaves: the byte, every other register, pc two further, nothing else changed. -/
theorem State.setReg_advance (s : State) (x : RegIx) (b : Byte) :
    (s.setReg x b).advance = { s with v := (s.setReg x b).advance.v, pc := (s.setReg x b).advance.pc } ∧
    (s.setReg x b).advance.pc = s.pc + 2 ∧ (s.setReg x b).advance.reg x = b ∧
    ∀ r, r ≠ x → (s.setReg x b).advance.reg r = s.reg r :=
  ⟨rfl, rfl, s.reg_setReg_same x b, fun _ hr => s.reg_setReg_of_ne hr b⟩

/-- Settles O39: each of the five is a single register write. -/
theorem loadsAndLogic : Obligations.LoadsAndLogic := by
  intro x y kk s p hp
  simp only [List.mem_cons, List.not_mem_nil, or_false] at hp
  obtain rfl | rfl | rfl | rfl | rfl := hp
  all_goals exact ⟨_, rfl, s.setReg_advance x _⟩

/-- What a result with a flag written last leaves (R121), the two bytes given as numbers: for x = 15 the flag. -/
theorem State.setRegFlag_advance (s : State) (x : RegIx) {b f : Byte} {result flag : Nat} (hb : b.toNat = result)
    (hf : f.toNat = flag) :
    (s.setRegFlag x b f).advance =
      { s with v := (s.setRegFlag x b f).advance.v, pc := (s.setRegFlag x b f).advance.pc } ∧
    (s.setRegFlag x b f).advance.pc = s.pc + 2 ∧ ((s.setRegFlag x b f).advance.reg 15).toNat = flag ∧
    (x ≠ 15 → ((s.setRegFlag x b f).advance.reg x).toNat = result) ∧
    ∀ r, r ≠ x → r ≠ 15 → (s.setRegFlag x b f).advance.reg r = s.reg r := by
  have hreg : ∀ r, (s.setRegFlag x b f).advance.reg r = if r = 15 then f else if r = x then b else s.reg r :=
    fun r => s.reg_setRegFlag x r b f
  refine ⟨rfl, rfl, ?_, fun hx => ?_, fun r hr hr' => ?_⟩
  · rw [hreg, if_pos rfl, hf]
  · rw [hreg, if_neg hx, if_pos rfl, hb]
  · rw [hreg, if_neg hr', if_neg hr]

/-- Settles O40: the wrapped sum as the result, the carry as the flag. -/
theorem addAssignCarry : Obligations.AddAssignCarry :=
  fun x _ s => ⟨_, rfl, s.setRegFlag_advance x (addBytes_toNat _ _) (carryFlag_toNat _ _)⟩

/-- Settles O41: the wrapped difference, in either order of the operands, and no borrow as the flag. -/
theorem subtractNoBorrow : Obligations.SubtractNoBorrow :=
  fun x _ s => ⟨⟨_, rfl, s.setRegFlag_advance x (subBytes_toNat _ _) (noBorrowFlag_toNat _ _)⟩,
    ⟨_, rfl, s.setRegFlag_advance x (subBytes_toNat _ _) (noBorrowFlag_toNat _ _)⟩⟩

/-- Settles O42: half or double of the byte, and the bit that drops out as the flag. -/
theorem shiftsByOne : Obligations.ShiftsByOne :=
  fun x s => ⟨⟨_, rfl, s.setRegFlag_advance x (shrByte_toNat _) (lsbFlag_toNat _)⟩,
    ⟨_, rfl, s.setRegFlag_advance x (shlByte_toNat _) (msbFlag_toNat _)⟩⟩

/-! ### The index register -/

/-- Settles O43: both write idx alone, a value that fits in 16 bits. -/
theorem indexLoads : Obligations.IndexLoads :=
  fun nnn x s => ⟨⟨_, rfl, rfl, rfl, zext16_toNat nnn⟩, ⟨_, rfl, rfl, rfl, glyphAddr_toNat (s.reg x)⟩⟩

theorem exec_incrementIdx (x : RegIx) (s : State) :
    exec (.incrementIdx x) s = .next ((s.setIdx (idxSum s.cfg.idxAddModulus s.idx (s.reg x))).setReg vf
      (idxOverflowFlag s.idx (s.reg x))).advance := rfl

/-- Settles O44: the sum is taken modulo the parameter, the flag compares the sum before it. -/
theorem indexIncrement : Obligations.IndexIncrement := by
  intro x s
  refine ⟨_, exec_incrementIdx x s, rfl, rfl, fun h => ?carry12, fun h => ?literalFFF, ?flag, fun r hr => ?others⟩
  case carry12 => exact (idxSum_toNat _ _ _).trans (by rw [h]; rfl)
  case literalFFF => exact (idxSum_toNat _ _ _).trans (by rw [h]; rfl)
  case flag => exact (congrArg BitVec.toNat (State.reg_setReg_same _ vf _)).trans (idxOverflowFlag_toNat _ _)
  case others => exact (State.reg_setReg_of_ne _ hr _).trans (s.setIdx_reg _ r)

/-! ### Stores and loads at idx -/

/-- The byte stored at the i-th address reads back. -/
theorem State.memRead_storeFrom_add {a i : Nat} {bs : List Byte} (h : i < bs.length) :
    (s.storeFrom a bs).memRead (a + i) = bs[i] := by
  rw [State.memRead_storeFrom, dif_pos (by omega)]
  simp only [Nat.add_sub_cancel_left]

theorem State.dataAddr_eq (s : State) (i : Nat) : s.dataAddr i = s.dataAddr 0 + i := rfl

/-- What storing bytes at idx leaves: memory and pc, and of memory every byte outside the stored range. -/
theorem State.storeFrom_advance (s : State) (bs : List Byte) :
    (s.storeFrom (s.dataAddr 0) bs).advance =
      { s with mem := (s.storeFrom (s.dataAddr 0) bs).advance.mem, pc := (s.storeFrom (s.dataAddr 0) bs).advance.pc } ∧
    (s.storeFrom (s.dataAddr 0) bs).advance.pc = s.pc + 2 ∧
    (∀ i (h : i < bs.length), (s.storeFrom (s.dataAddr 0) bs).advance.memRead (s.dataAddr i) = bs[i]) ∧
    ∀ a, (a < s.dataAddr 0 ∨ s.dataAddr 0 + bs.length ≤ a) →
      (s.storeFrom (s.dataAddr 0) bs).advance.memRead a = s.memRead a := by
  refine ⟨?frame, ?pc, fun i h => ?stored, fun a ha => ?others⟩
  case frame =>
    rw [State.storeFrom_frame]
    rfl
  case pc => rw [State.advance_pc, State.storeFrom_pc]
  case stored => rw [State.advance_memRead, s.dataAddr_eq i, State.memRead_storeFrom_add h]
  case others => rw [State.advance_memRead, State.memRead_storeFrom_of_ne ha]

theorem bcdDigits_toNat (a : Byte) :
    (bcdDigits a)[0].toNat = a.toNat / 100 ∧ (bcdDigits a)[1].toNat = a.toNat / 10 % 10 ∧
      (bcdDigits a)[2].toNat = a.toNat % 10 := by
  have := a.isLt
  refine ⟨?_, ?_, ?_⟩ <;> refine (BitVec.toNat_ofNat _ _).trans (Nat.mod_eq_of_lt ?_) <;> omega

/-- Settles O45: three stored bytes, or the range fault with the first address past memory. -/
theorem bcdStores : Obligations.BcdStores := by
  intro x s
  refine ⟨fun h => ?inside, fun hidx h => ?outside⟩
  case inside =>
    obtain ⟨hframe, hpc, hstored, hothers⟩ := s.storeFrom_advance (bcdDigits (s.reg x))
    obtain ⟨hhundreds, htens, hones⟩ := bcdDigits_toNat (s.reg x)
    refine ⟨_, exec_bcd_in x h, hframe, hpc, ?_, ?_, ?_, hothers⟩
    · rw [hstored 0 (by simp), hhundreds]
    · rw [hstored 1 (by simp), htens]
    · rw [hstored 2 (by simp), hones]
  case outside =>
    rw [exec_bcd_out x (by omega), State.outOfRange_eq hidx]
    rfl

/-- What DumpRegisters leaves when its range is inside memory. -/
theorem exec_dumpRegisters_stores {x : RegIx} (h : s.idx.toNat + x.val ≤ 0xFFF) :
    ∃ t, exec (.dumpRegisters x) s = .next t ∧ t = { s with mem := t.mem, pc := t.pc } ∧ t.pc = s.pc + 2 ∧
      (∀ r : RegIx, r ≤ x → t.memRead (s.dataAddr r.val) = s.reg r) ∧
      (∀ a, (a < s.dataAddr 0 ∨ s.dataAddr 0 + (x.val + 1) ≤ a) → t.memRead a = s.memRead a) := by
  obtain ⟨hframe, hpc, hstored, hothers⟩ := s.storeFrom_advance (s.regsUpTo x)
  rw [State.regsUpTo_length] at hothers
  refine ⟨_, exec_dumpRegisters_in h, hframe, hpc, fun r hr => ?_, hothers⟩
  rw [hstored r.val (by rw [State.regsUpTo_length]; exact Nat.lt_succ_of_le hr), State.regsUpTo_getElem]

/-- Settles O46: the stored bytes are the registers in order; past 0xFFF the range fault comes before any store. -/
theorem dumpStores : Obligations.DumpStores := by
  intro x s
  refine ⟨exec_dumpRegisters_stores, fun hidx h => ?_⟩
  rw [exec_dumpRegisters_out (by omega), State.outOfRange_eq hidx]
  rfl

/-- What FillRegisters leaves when its range is inside memory. -/
theorem exec_fillRegisters_loads {x : RegIx} (h : s.idx.toNat + x.val ≤ 0xFFF) :
    ∃ t, exec (.fillRegisters x) s = .next t ∧ t = { s with v := t.v, pc := t.pc } ∧ t.pc = s.pc + 2 ∧
      (∀ r : RegIx, r ≤ x → t.reg r = s.memRead (s.dataAddr r.val)) ∧
      (∀ r : RegIx, x < r → t.reg r = s.reg r) := by
  refine ⟨_, exec_fillRegisters_in h, ?_, ?_, fun r hr => ?_, fun r hr => ?_⟩
  · rw [State.loadRegs]; rfl
  · rw [State.advance_pc, State.loadRegs_pc]
  · rw [State.advance_reg, State.reg_loadRegs, if_pos hr]
  · rw [State.advance_reg, State.reg_loadRegs, if_neg (not_le.2 hr)]

/-- Settles O47: the loaded registers are the bytes in order; past 0xFFF the range fault comes before any load. -/
theorem fillLoads : Obligations.FillLoads := by
  intro x s
  refine ⟨exec_fillRegisters_loads, fun hidx h => ?_⟩
  rw [exec_fillRegisters_out (by omega), State.outOfRange_eq hidx]
  rfl

/-- Settles O48: the fill reads the addresses where the dump stored. -/
theorem fillRestoresDump : Obligations.FillRestoresDump := by
  intro x s t u h ht hmem hidx hcfg
  obtain ⟨t', ht', hframe, -, hdump, -⟩ := exec_dumpRegisters_stores h
  rw [ht] at ht'
  cases ht'
  have hidx : u.idx = s.idx := by rw [hidx, hframe]
  obtain ⟨v, hv, -, -, hfill, -⟩ := exec_fillRegisters_loads (s := u) (x := x) (by rw [hidx]; exact h)
  refine ⟨v, hv, fun r hr => ?_⟩
  have hread : u.memRead (u.dataAddr r.val) = t.memRead (s.dataAddr r.val) := by
    simp only [State.memRead, State.dataAddr, hmem, hcfg, hidx]
  rw [hfill r hr, hread, hdump r hr]

/-- Settles O49: the fetch joins the bytes at two addresses of the dump, high half first. -/
theorem storeIsSeenByNextFetch : Obligations.StoreIsSeenByNextFetch := by
  intro x r s t h ht hr
  obtain ⟨t', ht', -, -, hdump, -⟩ := exec_dumpRegisters_stores h
  rw [ht] at ht'
  cases ht'
  have haddr : s.dataAddr r.val = s.idx.toNat + r.val := rfl
  have hpc : (BitVec.ofNat 16 (s.dataAddr r.val)).toNat = s.dataAddr r.val := by
    rw [BitVec.toNat_ofNat, Nat.mod_eq_of_lt (by omega)]
  obtain ⟨w, hw, hval⟩ := State.fetch_toNat { t with pc := BitVec.ofNat 16 (s.dataAddr r.val) }
    (by change (BitVec.ofNat 16 (s.dataAddr r.val)).toNat ≤ 0xFFE; omega)
  refine ⟨w, hw, ?_⟩
  have hhigh : t.memRead (s.dataAddr r.val) = s.reg r := hdump r hr.le
  have hlow : t.memRead (s.dataAddr r.val + 1) = s.reg ⟨r.val + 1, by omega⟩ := hdump ⟨r.val + 1, by omega⟩ hr
  rw [← hhigh, ← hlow, hval]
  simp only [hpc]
  rfl

/-! ### Timers, keys, random -/

/-- Settles O53: each of the three moves one byte. -/
theorem timerAccess : Obligations.TimerAccess :=
  fun x s => ⟨⟨_, rfl, s.setReg_advance x s.dt⟩, ⟨_, rfl, rfl, rfl, rfl⟩, ⟨_, rfl, rfl, rfl, rfl⟩⟩

/-- Settles O54: the lowest key is none, or the one below which no other is latched. -/
theorem waitKeyEffect : Obligations.WaitKeyEffect := by
  intro x s
  refine ⟨fun h => exec_waitKey_idle x (s.lowestKey_none.2 fun k => h k.val k.isLt), fun k hk hdown hbelow => ?_⟩
  have hlow : s.lowestKey = some ⟨k, hk⟩ := (s.lowestKey_some ⟨k, hk⟩).2 ⟨hdown, fun j hj => hbelow j.val j.isLt hj⟩
  obtain ⟨hframe, hpc, hreg, hothers⟩ := s.setReg_advance x (BitVec.ofNat 8 k)
  refine ⟨_, exec_waitKey_key x hlow, hframe, hpc, ?_, hothers⟩
  rw [hreg, BitVec.toNat_ofNat, Nat.mod_eq_of_lt (by omega)]

end Sys2Proof.Machine
end

section
/-! The statements of the family 'other' that compare two runs: what holds whatever a timer, draw_flag, an input port or a
stale stack slot shows (R14, R15, R16, R21, R24). The timers' own statements stand here too, since their last clause is
such a comparison. -/

namespace Sys2Proof.Machine

variable {s s' t u : State} {i : Instr}

/-! ### Timers and draw_flag shadowed -/

/-- `exec_agree` with the result written out: it differs in the fields that Agreement leaves out only, and of those the
ports are the second state's own. -/
theorem exec_agree_eq (h : s.Agree s') (hdt : ∀ x, i = .storeDelay x → s'.dt = s.dt)
    (hrnd : ∀ x kk, i = .rand x kk → s'.inputs.rnd = s.inputs.rnd) (he : exec i s = .next t) :
    ∃ d e b f, exec i s' = .next { t with
        dt := d, st := e, drawFlag := b, fault := f, alert := s'.alert, result := s'.result
        inputs := s'.inputs, script := s'.script, draws := s'.draws } ∧
      SetAlike s.dt s'.dt t.dt d ∧ SetAlike s.st s'.st t.st e ∧
      ((t.drawFlag = s.drawFlag ∧ b = s'.drawFlag) ∨ (t.drawFlag = true ∧ b = true)) ∧
      SetAlike s.fault s'.fault t.fault f := by
  obtain ⟨t', ht', hagree, hd, he, hb, hf⟩ := exec_agree h hdt hrnd he
  have ho := exec_sameOutside ht'
  refine ⟨_, _, _, _, ht'.trans ?_, hd, he, hb, hf⟩
  rw [← ho.alert, ← ho.result, ← ho.inputs, ← ho.script, ← ho.draws]
  exact congrArg _ hagree.eq

/-- The machine with other timers and another draw_flag. -/
def State.shadow (s : State) (d e : Byte) (b : Bool) : State := { s with dt := d, st := e, drawFlag := b }

theorem State.agree_shadow (s : State) (d e : Byte) (b : Bool) : s.Agree (s.shadow d e b) := by
  constructor <;> rfl

/-- How draw_flag and its shadow go on: both kept, or both set. -/
def FlagAlike (before before' after after' : Bool) : Prop :=
  (after = before ∧ after' = before') ∨ (after = true ∧ after' = true)

theorem FlagAlike.same {b c c' : Bool} (h : FlagAlike b b c c') : c' = c := by
  obtain ⟨h, h'⟩ | ⟨h, h'⟩ := h <;> rw [h, h']

/-- No instruction but StoreDelay reads what is shadowed; each of the three goes on alike. -/
theorem exec_shadow (d e : Byte) (b : Bool) (hd : ∀ x, i = .storeDelay x → d = s.dt) (h : exec i s = .next u) :
    ∃ d' e' b', exec i (s.shadow d e b) = .next (u.shadow d' e' b') ∧
      SetAlike s.dt d u.dt d' ∧ SetAlike s.st e u.st e' ∧ FlagAlike s.drawFlag b u.drawFlag b' := by
  obtain ⟨d', e', b', f, hu, hd', he', hb', hf⟩ := exec_agree_eq (s.agree_shadow d e b) hd (fun _ _ _ => rfl) h
  have ho := exec_sameOutside h
  refine ⟨d', e', b', hu.trans ?_, hd', he', hb'⟩
  rw [hf.same]
  simp only [State.shadow, ← ho.alert, ← ho.result, ← ho.inputs, ← ho.script, ← ho.draws]

/-- The end of a step beside its shadow. -/
theorem State.endStep_shadow (u : State) (d e : Byte) (b : Bool) :
    ∃ d' e' a, (u.shadow d e b).endStep = { u.endStep.shadow d' e' b with alert := a } ∧
      (d = u.dt → d' = u.endStep.dt) ∧ (e = u.st → e' = u.endStep.st ∧ a = u.endStep.alert) := by
  cases hf : u.fault with
  | none =>
    rw [u.endStep_none hf, (u.shadow d e b).endStep_none hf, u.completed_dt, u.completed_st, u.completed_alert]
    exact ⟨tickByte d, tickByte e, e == 1, rfl, fun h => by rw [h], fun h => by rw [h]; exact ⟨rfl, rfl⟩⟩
  | some f =>
    rw [u.endStep_some hf, (u.shadow d e b).endStep_some hf]
    exact ⟨d, e, false, rfl, id, fun h => ⟨h, rfl⟩⟩

theorem State.endStep_drawFlag (u : State) : u.endStep.drawFlag = u.drawFlag := by
  cases hf : u.fault with
  | none => rw [u.endStep_none hf, u.completed_drawFlag]
  | some f => rw [u.endStep_some hf, u.faulted_drawFlag]

/-- A step beside a step with other timers and another draw_flag: they differ in these and in the alert, and a timer that
is the same in both stays so. Only StoreDelay must see the same dt. -/
theorem step_shadow (d e : Byte) (b : Bool)
    (hd : ∀ w x, s.fetch = some w → decode w = .instr (.storeDelay x) → d = s.dt) (h : step s = .next t) :
    ∃ d' e' b' a, step (s.shadow d e b) = .next { t.shadow d' e' b' with alert := a } ∧
      (d = s.dt → d' = t.dt) ∧ (e = s.st → e' = t.st ∧ a = t.alert) ∧ FlagAlike s.drawFlag b t.drawFlag b' := by
  obtain ⟨f, hf, rfl⟩ | ⟨hs, hq, rfl⟩ | ⟨hr, hf, rfl⟩ | ⟨hr, w, hf, hdec, rfl⟩ | ⟨hr, w, i, u, hf, hdec, he, -, rfl⟩ :=
    step_cases h
  · exact ⟨d, e, b, false, step_latched hf, id, fun h => ⟨h, rfl⟩, .inl ⟨rfl, rfl⟩⟩
  · exact ⟨d, e, b, false, step_quit hs hq, id, fun h => ⟨h, rfl⟩, .inl ⟨rfl, rfl⟩⟩
  · exact ⟨d, e, b, false, step_fetch_out hr hf, id, fun h => ⟨h, rfl⟩, .inl ⟨rfl, rfl⟩⟩
  · exact ⟨d, e, b, false, step_invalid hr hf hdec, id, fun h => ⟨h, rfl⟩, .inl ⟨rfl, rfl⟩⟩
  · obtain ⟨d', e', b', hu, hd', he', hb'⟩ := exec_shadow d e b (fun x hx => hd w x hf (hx ▸ hdec)) he
    obtain ⟨d'', e'', a, hend, hdend, heend⟩ := u.endStep_shadow d' e' b'
    have hstep := step_instr (s := s.shadow d e b) hr hf hdec hu
    refine ⟨d'', e'', b', a, hstep.trans (congrArg _ hend), fun h => hdend ?_, fun h => heend ?_, ?_⟩
    · subst h
      exact hd'.same
    · subst h
      exact he'.same
    · rw [u.endStep_drawFlag]
      exact hb'

/-- Settles O20: draw_flag is shadowed alone, so the timers and the alert come out the same. -/
theorem drawFlagIsOnlyAnOutput : Obligations.DrawFlagIsOnlyAnOutput := by
  refine ⟨fun s => rfl, fun s t b h => ?_⟩
  obtain ⟨d, e, b', a, hstep, hd, he, hb⟩ := step_shadow s.dt s.st b (fun _ _ _ _ => rfl) h
  obtain rfl := hd rfl
  obtain ⟨rfl, rfl⟩ := he rfl
  refine ⟨_, hstep, rfl, ?_⟩
  obtain ⟨-, hkept⟩ | ⟨hset, hset'⟩ := hb
  · exact .inl hkept
  · exact .inr ⟨hset', hset⟩

/-! ### The timers -/

/-- What the tick of a completed step finds in dt. -/
def dtBeforeTick (i : Instr) (s : State) : Nat := match i with | .setDelay x => (s.reg x).toNat | _ => s.dt.toNat

/-- What the tick of a completed step finds in st. -/
def stBeforeTick (i : Instr) (s : State) : Nat := match i with | .setSound x => (s.reg x).toNat | _ => s.st.toNat

theorem exec_setDelay (x : RegIx) (s : State) : exec (.setDelay x) s = .next { s.advance with dt := s.reg x } := rfl

theorem exec_setSound (x : RegIx) (s : State) : exec (.setSound x) s = .next { s.advance with st := s.reg x } := rfl

theorem exec_dt (h : exec i s = .next u) : u.dt.toNat = dtBeforeTick i s := by
  cases i
  case setDelay x =>
    rw [exec_setDelay] at h
    cases h
    rfl
  all_goals exact congrArg BitVec.toNat ((exec_kept h).dt rfl)

theorem exec_st (h : exec i s = .next u) : u.st.toNat = stBeforeTick i s := by
  cases i
  case setSound x =>
    rw [exec_setSound] at h
    cases h
    rfl
  all_goals exact congrArg BitVec.toNat ((exec_kept h).st rfl)

/-- A step that reports Completed ran an instruction to its end. -/
theorem step_completed (h : step s = .next t) (hc : t.result = some .completed) :
    ∃ w i u, s.fetch = some w ∧ decode w = .instr i ∧ exec i s = .next u ∧ t = u.completed := by
  obtain ⟨f, -, rfl⟩ | ⟨-, -, rfl⟩ | ⟨-, f, -, rfl⟩ | ⟨-, -, w, i, u, hf, hd, he, -, rfl⟩ := step_ends h
  · simp at hc
  · simp at hc
  · simp at hc
  · exact ⟨w, i, u, hf, hd, he, rfl⟩

/-- R82, R86: a step that does not complete neither ticks nor alerts. -/
theorem step_not_completed (h : step s = .next t) (hc : t.result ≠ some .completed) :
    t.dt = s.dt ∧ t.st = s.st ∧ t.alert = false := by
  obtain ⟨f, -, rfl⟩ | ⟨-, -, rfl⟩ | ⟨-, f, -, rfl⟩ | ⟨-, -, w, i, u, -, -, -, -, rfl⟩ := step_ends h
  · exact ⟨rfl, rfl, rfl⟩
  · exact ⟨rfl, rfl, rfl⟩
  · exact ⟨rfl, rfl, rfl⟩
  · exact absurd u.completed_result hc

/-- Settles O17: a completed step ticks what its instruction leaves in dt; the last clause shadows dt alone. -/
theorem delayTimer : Obligations.DelayTimer := by
  refine ⟨fun _ => rfl, fun s t h hc => ?ticks, fun s t h hc => (step_not_completed h hc).1,
    fun x s => ⟨_, rfl, s.reg_setReg_same x s.dt⟩, fun s t d hd h => ?unread⟩
  case ticks =>
    obtain ⟨w, i, u, hf, hdec, he, rfl⟩ := step_completed h hc
    refine ⟨w, i, hf, hdec, ?_⟩
    rw [u.completed_dt, tickByte_toNat, exec_dt he]
    rfl
  case unread =>
    obtain ⟨d', e, b, a, hstep, -, he, hb⟩ :=
      step_shadow d s.st s.drawFlag (fun w x hf hdec => absurd hdec (hd w x hf)) h
    obtain ⟨rfl, rfl⟩ := he rfl
    obtain rfl := hb.same
    exact ⟨_, hstep, rfl⟩

/-- Settles O18: a completed step ticks what its instruction leaves in st; the last clause shadows st alone. -/
theorem soundTimer : Obligations.SoundTimer := by
  refine ⟨fun _ => rfl, fun s t h hc => ?ticks, fun s t h hc => (step_not_completed h hc).2, fun s t e h => ?unread⟩
  case ticks =>
    obtain ⟨w, i, u, hf, hdec, he, rfl⟩ := step_completed h hc
    refine ⟨w, i, stBeforeTick i s, hf, hdec, rfl, ?_, ?_⟩
    · rw [u.completed_st, tickByte_toNat, exec_st he]
    · rw [u.completed_alert, beq_one_iff, exec_st he]
  case unread =>
    obtain ⟨d, e', b, a, hstep, hd, -, hb⟩ := step_shadow s.dt e s.drawFlag (fun _ _ _ _ => rfl) h
    obtain rfl := hd rfl
    obtain rfl := hb.same
    exact ⟨_, hstep, rfl⟩

/-! ### The input ports -/

theorem exec_rand (x : RegIx) (kk : Byte) (s : State) :
    exec (.rand x kk) s = .next (s.setReg x (s.inputs.rnd &&& kk)).advance := rfl

/-- Only Rand reads an input port. -/
theorem exec_inputs (inp : Inputs) (hi : ∀ x kk, i ≠ .rand x kk) (h : exec i s = .next t) :
    exec i { s with inputs := inp } = .next { t with inputs := inp } := by
  have hagree : s.Agree { s with inputs := inp } := by constructor <;> rfl
  obtain ⟨d, e, b, f, ht, hd, he, hb, hf⟩ :=
    exec_agree_eq hagree (fun _ _ => rfl) (fun x kk hx => absurd hx (hi x kk)) h
  have ho := exec_sameOutside h
  rw [ht, hd.same, he.same, FlagAlike.same hb, hf.same]
  simp only [← ho.alert, ← ho.result, ← ho.script, ← ho.draws]

/-- Settles O55: Rand is one register write of the masked byte, and only Rand reads a port. -/
theorem randMasksInput : Obligations.RandMasksInput :=
  ⟨fun x kk s => ⟨_, exec_rand x kk s, s.setReg_advance x _⟩, fun _ _ _ inp => exec_inputs inp⟩

/-! ### Stale stack slots -/

/-- The machine with another stack. -/
def State.withStack (s : State) (stack : Vector Word 16) : State := { s with stack := stack }

theorem State.storeFrom_withStack (s : State) (stack : Vector Word 16) (a : Nat) (bs : List Byte) :
    (s.withStack stack).storeFrom a bs = (s.storeFrom a bs).withStack stack := by
  induction bs generalizing s a with
  | nil => rfl
  | cons b bs ih => exact ih (s.memWrite a b) (a + 1)

/-- No instruction but Call and Return touches the stack: what its meaning tests and what it writes are the same with any
stack. -/
theorem exec_withStack (stack : Vector Word 16) (hi : writesStack i = false) (h : exec i s = .next t) :
    exec i (s.withStack stack) = .next (t.withStack stack) := by
  have hrange : ∀ n, (s.withStack stack).rangeFault n = s.rangeFault n := fun _ => rfl
  have hkey : ∀ k, (s.withStack stack).keyDown k = s.keyDown k := fun _ => rfl
  have hlow : (s.withStack stack).lowestKey = s.lowestKey := rfl
  have hreg : ∀ x, (s.withStack stack).reg x = s.reg x := fun _ => rfl
  have hcfg : (s.withStack stack).cfg = s.cfg := rfl
  revert h
  cases i
  case call | ret => cases hi
  case bcd | dumpRegisters =>
    simp only [exec, execBcd, execDumpRegisters, hrange, State.storeFrom_withStack]
    split <;> rintro ⟨⟩ <;> rfl
  case fillRegisters | draw =>
    simp only [exec, execFillRegisters, execDraw, hrange]
    split <;> rintro ⟨⟩ <;> rfl
  case machineCall | skipIfPressed | skipIfNotPressed | waitKey =>
    simp only [exec, execMachineCall, execSkipIfPressed, execSkipIfNotPressed, execWaitKey, hkey, hlow, hreg, hcfg]
    split <;> rintro ⟨⟩ <;> rfl
  all_goals
    rintro ⟨⟩
    rfl

/-- `stack` holds in the live slots of `s` what `s` does (R14). -/
def State.LiveAlike (s : State) (stack : Vector Word 16) : Prop :=
  ∀ j (h : j < 16), j < s.sp.val → stack[j] = s.stack[j]

/-- A Call fills the first stale slot and leaves the live ones. -/
theorem exec_call_stale (nnn : Addr) {stack : Vector Word 16} (hlive : s.LiveAlike stack)
    (h : exec (.call nnn) s = .next t) :
    ∃ t', exec (.call nnn) (s.withStack stack) = .next t' ∧ t' = { t with stack := t'.stack } ∧ t.LiveAlike t'.stack := by
  by_cases hsp : s.sp.val < 16
  · rw [exec_call_room nnn hsp] at h
    cases h
    refine ⟨_, exec_call_room (s := s.withStack stack) nnn hsp, rfl, fun j hj hlt => ?_⟩
    change j < s.sp.val + 1 at hlt
    refine ((s.withStack stack).pushed_stack s.pc hsp j hj).trans (Eq.trans ?_ (s.pushed_stack s.pc hsp j hj).symm)
    change (if j = s.sp.val then s.pc else stack[j]) = _
    split
    · rfl
    · exact hlive j hj (by omega)
  · rw [exec_call_full nnn hsp] at h
    cases h
    exact ⟨_, exec_call_full (s := s.withStack stack) nnn hsp, rfl, hlive⟩

/-- A Return reads the last live slot. -/
theorem exec_ret_stale {stack : Vector Word 16} (hlive : s.LiveAlike stack) (h : exec .ret s = .next t) :
    ∃ t', exec .ret (s.withStack stack) = .next t' ∧ t' = { t with stack := t'.stack } ∧ t.LiveAlike t'.stack := by
  by_cases hsp : 0 < s.sp.val
  · rw [exec_ret_some hsp, ← hlive (s.sp.val - 1) (by omega) (by omega)] at h
    cases h
    refine ⟨_, exec_ret_some (s := s.withStack stack) hsp, rfl, fun j hj hlt => hlive j hj ?_⟩
    change j < s.sp.val - 1 at hlt
    omega
  · rw [exec_ret_empty hsp] at h
    cases h
    exact ⟨_, exec_ret_empty (s := s.withStack stack) hsp, rfl, hlive⟩

/-- Settles O21: Call and Return stay among the live slots, and no other instruction reads a slot. -/
theorem staleSlotsUnread : Obligations.StaleSlotsUnread := by
  intro i s t stack hlive h
  cases hw : writesStack i with
  | false =>
    obtain ⟨hstack, hsp⟩ := (exec_kept h).stack hw
    refine ⟨_, exec_withStack stack hw h, rfl, fun j hj hlt => ?_⟩
    rw [hsp] at hlt
    rw [hstack]
    exact hlive j hj hlt
  | true =>
    cases i
    case call nnn => exact exec_call_stale nnn hlive h
    case ret => exact exec_ret_stale hlive h
    all_goals cases hw

end Sys2Proof.Machine
end

section
/-! The statements of the family 'other' about Draw (45_display.md section 2). The drawing loops cover exactly the pixels
of `spriteCovers`, so what they do to a pixel (Laws/Display) is R151, and twice the same is R152. -/

namespace Sys2Proof.Machine

variable {s t u : State} {x y : RegIx} {n : Fin 16}

/-- The rows and columns the drawing loops run through are those of R151. -/
theorem rowsCover_iff (s : State) (x y : RegIx) (n : Nat) (px : Fin 64) (py : Fin 32) :
    RowsCover (s.reg x) (s.reg y) 0 (s.bytesAtIdx n) px py ↔ spriteCovers s x y n px py := by
  constructor
  · rintro ⟨row, hrow, hy, col, hcol, hbit, hx⟩
    rw [State.bytesAtIdx_getElem] at hbit
    rw [State.bytesAtIdx_length] at hrow
    refine ⟨row, col, hrow, mem_cols.1 hcol, congrArg Fin.val hx, ?_, hbit⟩
    rw [← hy, Nat.zero_add]
    rfl
  · rintro ⟨row, col, hrow, hcol, hx, hy, hbit⟩
    refine ⟨row, by rwa [State.bytesAtIdx_length], Fin.ext ?_, col, mem_cols.2 hcol, ?_, Fin.ext hx⟩
    · rw [Nat.zero_add]
      exact hy
    · rw [State.bytesAtIdx_getElem]
      exact hbit

/-- A sprite has at most 15 rows, so no two of them fall on one screen row. -/
theorem State.bytesAtIdx_rows (s : State) (n : Fin 16) : (s.bytesAtIdx n.val).length ≤ 32 := by
  rw [State.bytesAtIdx_length]
  omega

theorem State.drawing_of_covers {px : Fin 64} {py : Fin 32} (h : spriteCovers s x y n.val px py) :
    pixel (s.drawing x y n.val).screen px py = !pixel s.screen px py := by
  rw [State.drawing, drawRows_pixel _ (s.bytesAtIdx_rows n), decide_eq_true ((rowsCover_iff s x y n.val px py).2 h),
    Bool.xor_true]

theorem State.drawing_of_not_covers {px : Fin 64} {py : Fin 32} (h : ¬ spriteCovers s x y n.val px py) :
    pixel (s.drawing x y n.val).screen px py = pixel s.screen px py := by
  rw [State.drawing, drawRows_pixel _ (s.bytesAtIdx_rows n), decide_eq_false (fun h' => h ((rowsCover_iff ..).1 h')),
    Bool.xor_false]

/-- A collision is a covered pixel that was 1 before. -/
theorem State.drawing_hit (s : State) (x y : RegIx) (n : Fin 16) :
    (s.drawing x y n.val).hit = true ↔ ∃ px py, spriteCovers s x y n.val px py ∧ pixel s.screen px py = true := by
  rw [State.drawing, drawRows_hit _ (s.bytesAtIdx_rows n)]
  simp only [Bool.false_eq_true, false_or, rowsCover_iff]

/-- VF after a drawing is the flag of its collision. -/
theorem State.showCanvas_vf (s : State) (c : Canvas) : (s.showCanvas c).advance.reg 15 = flagByte c.hit :=
  State.reg_setReg_same s vf (flagByte c.hit)

/-- Settles O51: pixel by pixel what the loops do, and the range fault where the sprite's bytes pass 0xFFF. -/
theorem drawXorsSprite : Obligations.DrawXorsSprite := by
  intro x y n s
  refine ⟨fun h => ?inside, fun hn hidx h => ?outside⟩
  case inside =>
    have hhit := s.drawing_hit x y n
    refine ⟨_, exec_draw_in x y h, rfl, fun r hr => s.reg_setReg_of_ne hr _,
      fun px py => ⟨State.drawing_of_covers, State.drawing_of_not_covers⟩, fun hc => ?_, fun hc => ?_⟩
    · rw [State.showCanvas_vf, hhit.2 hc]
      rfl
    · rw [State.showCanvas_vf, Bool.eq_false_iff.2 fun h => hc (hhit.1 h)]
      rfl
  case outside =>
    rw [exec_draw_out x y (by omega), State.outOfRange_eq hidx]
    rfl

/-- What a sprite covers depends on its coordinates and its bytes at idx only. -/
theorem spriteCovers_congr (hx : u.reg x = s.reg x) (hy : u.reg y = s.reg y) (hidx : u.idx = s.idx)
    (hmem : ∀ a, u.memRead a = s.memRead a) (n : Nat) (px : Fin 64) (py : Fin 32) :
    spriteCovers u x y n px py ↔ spriteCovers s x y n px py := by
  simp only [spriteCovers, State.dataAddr, hx, hy, hidx, hmem]

/-- Settles O52: a covered pixel is inverted twice, any other never. -/
theorem drawTwiceRestores : Obligations.DrawTwiceRestores := by
  intro x y n s t u h ht hscreen hx hy hidx hmem
  rw [exec_draw_in x y h] at ht
  cases ht
  have hscreen : u.screen = (s.drawing x y n.val).screen := hscreen
  refine ⟨_, exec_draw_in x y (by rwa [hidx]), screen_ext fun px py => ?_⟩
  change pixel (u.drawing x y n.val).screen px py = pixel s.screen px py
  by_cases hc : spriteCovers s x y n.val px py
  · rw [State.drawing_of_covers ((spriteCovers_congr hx hy hidx hmem _ px py).2 hc), hscreen, State.drawing_of_covers hc,
      Bool.not_not]
  · rw [State.drawing_of_not_covers (mt (spriteCovers_congr hx hy hidx hmem _ px py).1 hc), hscreen,
      State.drawing_of_not_covers hc]

end Sys2Proof.Machine
end

section
/-! The statements of the family 'other' about reset, load and runs of many steps: a waiting machine (R163) and one that
has finished (R207), each by induction on the number of steps. -/

namespace Sys2Proof.Machine

variable {s t u : State}

/-! ### Reset and load -/

theorem Memory.background_font (font : Font) {a : Nat} (h : a < 80) : Memory.background font a = font[a] := by
  simp [Memory.background, h]

theorem Memory.background_zero (font : Font) {a : Nat} (h : 80 ≤ a) : Memory.background font a = 0 := by
  rw [Memory.background, Vector.getElem?_eq_none h, Option.getD_none]

/-- Settles O57: each field of the reset state is written out; an unlisted address reads as FONT or 0. -/
theorem resetValues : Obligations.ResetValues := by
  refine ⟨fun s => ?_, rfl, rfl, rfl⟩
  exact ⟨fun r => Vector.getElem_replicate r.isLt, rfl, rfl, rfl, fun j h => Vector.getElem_replicate h, rfl, rfl,
    fun a h => Memory.background_font _ h, fun a h => Memory.background_zero _ h, pixel_blank,
    fun k h => Vector.getElem_replicate h, rfl, rfl, rfl⟩

/-- Two machines with the same parameters are the same after a reset, but for what their input ports show. -/
theorem State.agree_resetEvent {s' : State} (h : s'.cfg = s.cfg) : s.resetEvent.Agree s'.resetEvent := by
  constructor
  case cfg => exact h
  all_goals rfl

/-- Settles O58: a load is a reset and a store from 0x200 on, and the reset forgets what was there. -/
theorem loadResetsAndCopies : Obligations.LoadResetsAndCopies := by
  intro s rom
  refine ⟨fun h => ?accepted, State.load_refused⟩
  case accepted =>
    rw [State.load_accepted h]
    refine ⟨rfl, State.storeFrom_frame, fun i hi => State.memRead_storeFrom_add hi,
      fun a ha => State.memRead_storeFrom_of_ne ha, fun s' hcfg => ?_⟩
    rw [State.load_accepted h]
    dsimp only
    rw [State.storeFrom_frame, State.storeFrom_frame (s := s.resetEvent),
      (State.agree_resetEvent hcfg).storeFrom_mem]
    simp only [State.resetEvent, hcfg]

/-! ### The host's placing of a word -/

/-- Two bytes stored at pc are the word that is fetched. -/
theorem State.fetch_storeFrom (s : State) (first second : Byte) (h : s.pc.toNat ≤ 0xFFE) :
    (s.storeFrom s.pc.toNat [first, second]).fetch = some (wordOfBytes first second) := by
  have hfirst : (s.storeFrom s.pc.toNat [first, second]).memRead (s.pc.toNat + 0) = first :=
    State.memRead_storeFrom_add (by simp)
  have hsecond : (s.storeFrom s.pc.toNat [first, second]).memRead (s.pc.toNat + 1) = second :=
    State.memRead_storeFrom_add (by simp)
  rw [State.fetch_in _ (by rwa [State.storeFrom_pc]), State.storeFrom_pc, hsecond]
  exact congrArg (fun b => some (wordOfBytes b second)) hfirst

/-- Settles O60: the bytes placed are the halves of the word, at a pc that can be fetched from. -/
theorem placedWordIsFetched : Obligations.PlacedWordIsFetched := by
  intro s w
  have hbits : w.toNat % 2 ^ 16 = w.toNat := Nat.mod_eq_of_lt w.isLt
  have hpc : (if s.pc.toNat ≤ 0xFFE then s.pc else 0x200 : Word).toNat ≤ 0xFFE := by
    split
    · assumption
    · decide
  unfold State.withFetchWord
  dsimp only
  rw [hbits]
  refine ⟨?fetch, State.storeFrom_fault, by rw [State.storeFrom_inputs]⟩
  case fetch => exact (State.fetch_storeFrom _ _ _ hpc).trans (by rw [wordOfBytes_halves])

/-! ### A machine on a jump to itself -/

/-- What a finished machine keeps for good. -/
structure State.Rests (s t : State) : Prop where
  v : t.v = s.v := by rfl
  idx : t.idx = s.idx := by rfl
  pc : t.pc = s.pc := by rfl
  sp : t.sp = s.sp := by rfl
  stack : t.stack = s.stack := by rfl
  mem : t.mem = s.mem := by rfl
  screen : t.screen = s.screen := by rfl
  cfg : t.cfg = s.cfg := by rfl
  fault : t.fault = s.fault := by rfl

theorem State.Rests.trans (h : s.Rests t) (h' : t.Rests u) : s.Rests u where
  v := h'.v.trans h.v
  idx := h'.idx.trans h.idx
  pc := h'.pc.trans h.pc
  sp := h'.sp.trans h.sp
  stack := h'.stack.trans h.stack
  mem := h'.mem.trans h.mem
  screen := h'.screen.trans h.screen
  cfg := h'.cfg.trans h.cfg
  fault := h'.fault.trans h.fault

theorem State.completed_rests (s : State) : s.Rests s.completed where
  v := s.completed_v
  idx := s.completed_idx
  pc := s.completed_pc
  sp := s.completed_sp
  stack := s.completed_stack
  mem := s.completed_mem
  screen := s.completed_screen
  cfg := s.completed_cfg
  fault := s.completed_fault

/-- The fetch looks at pc, memory and the parameters. -/
theorem State.fetch_congr (hpc : t.pc = s.pc) (hmem : t.mem = s.mem) (hcfg : t.cfg = s.cfg) : t.fetch = s.fetch := by
  simp only [State.fetch, State.memRead, hpc, hmem, hcfg]

theorem State.Rests.finished (h : s.Rests t) : t.finished = s.finished := by
  simp only [State.finished, State.fetch_congr h.pc h.mem h.cfg, h.pc]

/-- R207: a finished machine fetches the word of a Jump whose target is pc. -/
theorem State.finished_fetch (h : s.finished = true) :
    ∃ nnn, s.fetch = some (encode (.jump nnn)) ∧ zext16 nnn = s.pc := by
  obtain ⟨hpc, hfetch⟩ : s.pc.toNat ≤ 0xFFE ∧ s.fetch = some (BitVec.ofNat 16 (0x1000 + s.pc.toNat)) := by
    simpa [State.finished] using h
  have hnnn : (BitVec.ofNat 12 s.pc.toNat).toNat = s.pc.toNat := by
    rw [BitVec.toNat_ofNat, Nat.mod_eq_of_lt (by omega)]
  refine ⟨BitVec.ofNat 12 s.pc.toNat, ?_, BitVec.eq_of_toNat_eq ?_⟩
  · rw [hfetch, encode, encA, hnnn]
  · rw [zext16_toNat, hnnn]

/-- A step of a finished machine quits or takes the jump to where it stands. -/
theorem step_finished (hs : s.fault = none) (hfin : s.finished = true) (h : step s = .next t) : s.Rests t := by
  obtain ⟨nnn, hfetch, hnnn⟩ := State.finished_fetch hfin
  cases hq : s.inputs.quit with
  | true =>
    rw [step_quit hs hq] at h
    cases h
    exact {}
  | false =>
    have hjump : exec (.jump nnn) s = .next s := by rw [exec_jump, hnnn]; rfl
    rw [step_instr ⟨hs, hq⟩ hfetch (decode_encode (.jump nnn) rfl) hjump, s.endStep_none hs] at h
    cases h
    exact s.completed_rests

theorem run_finished (n : Nat) (hs : s.fault = none) (hfin : s.finished = true)
    (h : Sys2Proof.core.run n s = .next t) : s.Rests t := by
  induction n generalizing s with
  | zero =>
    cases h
    exact {}
  | succ n ih =>
    obtain ⟨u, hu⟩ := step_total s
    have hrests := step_finished hs hfin hu
    rw [core_run_succ n hu] at h
    exact hrests.trans (ih (hrests.fault.trans hs) (hrests.finished.trans hfin) h)

/-- Settles O59: at rest the machine stays finished, and rests again in every further step. -/
theorem finishedStaysFinished : Obligations.FinishedStaysFinished := by
  intro n s t hs hfin h
  have hr := run_finished n hs hfin h
  exact ⟨hr.finished.trans hfin, hr.fault.trans hs, hr.v, hr.idx, hr.pc, hr.sp, hr.stack, hr.mem, hr.screen⟩

/-! ### A waiting machine -/

/-- No fault, and the instruction at pc is WaitKey(x). -/
structure State.AtWaitKey (s : State) (x : RegIx) : Prop where
  fault : s.fault = none
  fetch : ∃ w, s.fetch = some w ∧ decode w = .instr (.waitKey x)

variable {x : RegIx}

theorem State.AtWaitKey.completed (h : s.AtWaitKey x) : s.completed.AtWaitKey x where
  fault := s.completed_fault.trans h.fault
  fetch := by
    rw [State.fetch_congr s.completed_pc s.completed_mem s.completed_cfg]
    exact h.fetch

/-- R163: with no key latched the step completes and its instruction does nothing. -/
theorem State.AtWaitKey.step_idle (h : s.AtWaitKey x) (hq : s.inputs.quit = false) (hkey : s.lowestKey = none) :
    step s = .next s.completed := by
  obtain ⟨w, hf, hd⟩ := h.fetch
  rw [step_instr ⟨h.fault, hq⟩ hf hd (exec_waitKey_idle x hkey), s.endStep_none h.fault]

/-- R163: with a key latched the step stores the lowest and moves on. -/
theorem State.AtWaitKey.step_key (h : s.AtWaitKey x) (hq : s.inputs.quit = false) {k : Fin 16}
    (hkey : s.lowestKey = some k) :
    step s = .next (s.setReg x (BitVec.ofNat 8 k.val)).advance.completed := by
  obtain ⟨w, hf, hd⟩ := h.fetch
  rw [step_instr ⟨h.fault, hq⟩ hf hd (exec_waitKey_key x hkey),
    (s.setReg x (BitVec.ofNat 8 k.val)).advance.endStep_none h.fault]

/-- R89: what a completed step latches is what `keys_in` showed. -/
theorem State.completed_key_getElem (s : State) (k : Nat) (h : k < 16) :
    s.completed.key[k] = s.inputs.keys.getLsbD k := by
  simp only [s.completed_key, latchOf_getElem]

/-- The ports go on with the script while it lasts. -/
theorem State.comingInputs_cons_tail (h : s.script ≠ []) : s.comingInputs :: s.script.tail = s.script := by
  cases hs : s.script with
  | nil => exact absurd hs h
  | cons inp rest => simp only [State.comingInputs, hs, List.tail_cons]

/-- The coming `n` steps sample no quit and no key. -/
def State.IdleFor (s : State) (n : Nat) : Prop :=
  n ≤ s.script.length + 1 ∧ ∀ inp ∈ (s.inputs :: s.script).take n, inp.quit = false ∧ inp.keys = 0

theorem State.IdleFor.now {n : Nat} (h : s.IdleFor (n + 1)) : s.inputs.quit = false ∧ s.inputs.keys = 0 :=
  h.2 _ (by simp)

theorem State.IdleFor.completed {n : Nat} (h : s.IdleFor (n + 1)) : s.completed.IdleFor n := by
  obtain ⟨hlen, hidle⟩ := h
  rw [State.IdleFor, s.completed_inputs, s.completed_script]
  refine ⟨by rw [List.length_tail]; omega, fun inp hinp => ?_⟩
  by_cases hs : s.script = []
  · have hn : n = 0 := by simpa [hs] using hlen
    simp [hn] at hinp
  · rw [State.comingInputs_cons_tail hs] at hinp
    exact hidle inp (by rw [List.take_succ_cons]; exact List.mem_cons_of_mem _ hinp)

/-- What `n` idle steps of a waiting machine leave (R163, R87, R88). -/
structure State.Waited (s : State) (n : Nat) (t : State) : Prop where
  pc : t.pc = s.pc
  v : t.v = s.v
  mem : t.mem = s.mem
  screen : t.screen = s.screen
  fault : t.fault = none
  key : ∀ k (h : k < 16), t.key[k] = false
  dt : t.dt.toNat = s.dt.toNat - n
  st : t.st.toNat = s.st.toNat - n
  last : 0 < n → t.result = some .completed ∧ (t.alert = true ↔ s.st.toNat = n)

theorem run_waiting (n : Nat) (hs : s.AtWaitKey x) (hkey : ∀ k (h : k < 16), s.key[k] = false) (hidle : s.IdleFor n) :
    ∃ t, Sys2Proof.core.run n s = .next t ∧ s.Waited n t := by
  induction n generalizing s with
  | zero => exact ⟨s, rfl, rfl, rfl, rfl, rfl, hs.fault, hkey, rfl, rfl, fun h => absurd h (Nat.lt_irrefl 0)⟩
  | succ n ih =>
    obtain ⟨hquit, hkeys⟩ := hidle.now
    have hstep := hs.step_idle hquit (s.lowestKey_none.2 fun k => hkey k.val k.isLt)
    have hkey' : ∀ k (h : k < 16), s.completed.key[k] = false := fun k h => by
      rw [s.completed_key_getElem k h, hkeys]
      exact BitVec.getLsbD_zero
    obtain ⟨t, ht, hw⟩ := ih hs.completed hkey' hidle.completed
    have hdt : s.completed.dt.toNat = s.dt.toNat - 1 := by rw [s.completed_dt, tickByte_toNat]
    have hst : s.completed.st.toNat = s.st.toNat - 1 := by rw [s.completed_st, tickByte_toNat]
    refine ⟨t, (core_run_succ n hstep).trans ht, hw.pc.trans s.completed_pc, hw.v.trans s.completed_v,
      hw.mem.trans s.completed_mem, hw.screen.trans s.completed_screen, hw.fault, hw.key, ?_, ?_, fun _ => ?_⟩
    · rw [hw.dt, hdt]; omega
    · rw [hw.st, hst]; omega
    · cases n with
      | zero =>
        cases ht
        exact ⟨s.completed_result, by rw [s.completed_alert, beq_one_iff]⟩
      | succ n =>
        obtain ⟨hresult, halert⟩ := hw.last (Nat.succ_pos n)
        exact ⟨hresult, by rw [halert, hst]; omega⟩

/-- Settles O56: the idle steps by induction, and for the key one step that latches it and one that stores it. -/
theorem waitKeyWaits : Obligations.WaitKeyWaits := by
  refine ⟨fun n s w x hs hf hd hkey hlen hidle => ?waits, fun s w x next rest k hs hf hd hkey hq hscript hnext hk hdown
    hbelow => ?stores⟩
  case waits =>
    obtain ⟨t, ht, hw⟩ := run_waiting n ⟨hs, w, hf, hd⟩ hkey ⟨hlen, hidle⟩
    exact ⟨t, ht, hw.pc, hw.v, hw.mem, hw.screen, hw.fault, hw.key, hw.dt, hw.st, hw.last⟩
  case stores =>
    have hat : s.AtWaitKey x := ⟨hs, w, hf, hd⟩
    have hquit : s.completed.inputs.quit = false := by
      rw [s.completed_inputs, State.comingInputs, hscript]
      exact hnext
    have hlow : s.completed.lowestKey = some ⟨k, hk⟩ := by
      refine (s.completed.lowestKey_some ⟨k, hk⟩).2 ⟨?_, fun j hj => ?_⟩
      · rw [s.completed_key_getElem k hk, hdown]
      · rw [s.completed_key_getElem j.val j.isLt, hbelow j.val hj]
    refine ⟨_, _, hat.step_idle hq (s.lowestKey_none.2 fun j => hkey j.val j.isLt), s.completed_pc, s.completed_v,
      hat.completed.step_key hquit hlow, ?_, ?_⟩
    · rw [State.completed_pc, State.advance_pc, State.setReg_pc, s.completed_pc]
    · rw [State.completed_reg, State.advance_reg, State.reg_setReg_same, BitVec.toNat_ofNat, Nat.mod_eq_of_lt (by omega)]

end Sys2Proof.Machine
end
